-- ==== Sys2Proof/Word.lean ====
section
/-! DEFINITION. The word types of the command port: 00_scope.md R6, R7; 30_encoding.md R82, R84. -/

namespace Sys2Proof

/-- A command word or a response word (30_encoding.md R82, R84). Bit 0 is the least significant bit (00_scope.md R7). -/
abbrev Word := BitVec 32

/-- The 16-bit immediate of a command and the 16-bit value of a response. -/
abbrev Half := BitVec 16

/-- A packed Address, or an offset of the same shape (10_state.md R44, R45). -/
abbrev Address := BitVec 15

/-- An index of a digital input line as a command spells it, 0 to 7 (30_encoding.md R83). -/
abbrev Line := Fin 8

/-- An index of an encoder element as a command spells it, 0 to 15 (30_encoding.md R83). -/
abbrev Elt := Fin 16

end Sys2Proof
end

