-- ==== Sys2Proof/Config.lean ====
section
/-! DEFINITION. What an instance of the block fixes (00_scope.md R5), the values of the parameters left open, and the free
values of the environment (10_state.md R31 to R33). -/

namespace Sys2Proof

/-- The two results an address-field sum beyond its range can have (42_resolver.md R142). -/
inductive AddrOvf
  | saturate
  | truncate
  deriving DecidableEq, Repr, Inhabited

/-- The two instants at which `DATA` can be sampled in a bit period (44_shiftreg.md R175). -/
inductive SamplePoint
  | beforeRise
  | whileHigh
  deriving DecidableEq, Repr, Inhabited

/-- The parameters of an instance (00_scope.md R5): its configuration record. `DELTA_W`, which is not free, is
`Params.deltaW`. -/
structure Params where
  /-- `N`: the digital input lines the SRR reads per snapshot, 1 to 8. -/
  n : Nat
  /-- `NENC`: the encoder elements, 1 to 16. -/
  nenc : Nat
  /-- `POS_W`: the width in bits of a raw encoder position, 2 to 64. -/
  posW : Nat
  /-- `SAMPLE_POINT`: where in a bit period the data line is sampled. -/
  samplePoint : SamplePoint
  /-- `ADDR_OVF`: the result of an address-field sum beyond the field's range. -/
  addrOvf : AddrOvf
  /-- `T_PH`: the clock cycles one SRR phase lasts, at least 1. -/
  tPh : Nat
  deriving DecidableEq, Repr

/-- The ranges of 00_scope.md R5. -/
abbrev Params.wf (p : Params) : Prop :=
  (1 ≤ p.n ∧ p.n ≤ 8) ∧ (1 ≤ p.nenc ∧ p.nenc ≤ 16) ∧ (2 ≤ p.posW ∧ p.posW ≤ 64) ∧ 1 ≤ p.tPh

/-- `DELTA_W`, the width of an event's delta (00_scope.md R5). -/
def Params.deltaW (p : Params) : Nat := p.posW + 16

namespace Config

/-- `ADDR_OVF` of the default instance, for which 00_scope.md R5 has OPEN: nothing is known of it. -/
opaque addrOvf : AddrOvf

/-- `SAMPLE_POINT` of the default instance, for which 00_scope.md R5 has OPEN: nothing is known of it. -/
opaque samplePoint : SamplePoint

/-- The clocks beyond the first that a phase lasts on the default instance: nothing is known of it. -/
opaque tPhExtra : Nat

/-- `T_PH` of the default instance, for which 00_scope.md R5 has OPEN: an integer at least 1. -/
def tPh : Nat := tPhExtra + 1

/-- The level on `DATA` at the draw of the given number (10_state.md R33): a free value. -/
opaque freeData : Nat → Bool

/-- The level on `inc_raw` at the draw of the given number (10_state.md R32): a free value. -/
opaque freeInc : Nat → Bool

/-- The position on the `pos_in` input at the draw of the given number (10_state.md R31): a free value. -/
opaque freePos : Nat → Int

end Config

/-- The default instance: the defaults of 00_scope.md R5, and for a parameter R5 leaves OPEN a value of which nothing is
known. -/
def Params.default : Params :=
  { n := 8, nenc := 1, posW := 32, samplePoint := Config.samplePoint, addrOvf := Config.addrOvf, tPh := Config.tPh }

end Sys2Proof
end

