-- ==== Sys2Proof/Syntax.lean ====
section
/-! DEFINITION. The commands of the block, one constructor per row of the opcode map (30_encoding.md R86), with their
operands (30_encoding.md R83). -/

namespace Sys2Proof

/-- A configuration register by name (10_state.md R38 to R46): four global ones and four of each encoder element. -/
inductive CfgReg
  | nset
  | initset
  | wrap
  | inccfg
  | pps (e : Elt)
  | mul (e : Elt)
  | base (e : Elt)
  | ofs (e : Elt)
  deriving DecidableEq, Repr

/-- The fourteen commands (00_scope.md R12, 30_encoding.md R86). -/
inductive Instr
  | cfgw (reg : CfgReg) (value : Half)
  | init
  | stat
  | sru
  | rd (line : Line)
  | rdb (line : Line)
  | ard (line : Line)
  | wr (line : Line) (v : Half)
  | awr (line : Line) (v : Half)
  | selu
  | incr
  | selr
  | rslv (e : Elt)
  | encu (e : Elt)
  deriving DecidableEq, Repr

end Sys2Proof
end

