-- ==== Sys2Proof/WellFormed.lean ====
section
/-! DEFINITION. The value checks of the opcode map (30_encoding.md R86 last column, R88 steps 3 and 4): which commands a
word can spell on an instance with the given parameters. -/

namespace Sys2Proof

/-- The width in bits of a configuration register (30_encoding.md R87). -/
def CfgReg.width : CfgReg → Nat
  | .nset => 8
  | .initset => 8
  | .wrap => 1
  | .inccfg => 5
  | .pps _ => 16
  | .mul _ => 16
  | .base _ => 15
  | .ofs _ => 15

/-- The register exists on the instance: an element register needs `e < NENC` (10_state.md R46). -/
def CfgReg.exists? (p : Params) : CfgReg → Bool
  | .nset => true
  | .initset => true
  | .wrap => true
  | .inccfg => true
  | .pps e => e.val < p.nenc
  | .mul e => e.val < p.nenc
  | .base e => e.val < p.nenc
  | .ofs e => e.val < p.nenc

/-- The index and value checks of a command (30_encoding.md R88 steps 3 and 4). `ARD`, `WR` and `AWR` take every line. -/
def Instr.wf (p : Params) : Instr → Bool
  | .cfgw reg value => reg.exists? p && decide (value.toNat < 2 ^ reg.width)
  | .init => true
  | .stat => true
  | .sru => true
  | .rd line => line.val < p.n
  | .rdb line => line.val < p.n
  | .ard _ => true
  | .wr _ _ => true
  | .awr _ _ => true
  | .selu => true
  | .incr => true
  | .selr => true
  | .rslv e => e.val < p.nenc
  | .encu e => e.val < p.nenc

end Sys2Proof
end

