-- ==== Sys2Proof/Decode.lean ====
section
/-! DEFINITION. Decoding a command word, total on all 2^32 words (30_encoding.md R82 to R90), and after it the encoder. -/

namespace Sys2Proof

/-- The fourteen opcodes by name (30_encoding.md R86). -/
inductive Opcode
  | cfgw | init | stat | sru | rd | rdb | ard | wr | awr | selu | incr | selr | rslv | encu
  deriving DecidableEq, Repr

/-- The five formats (30_encoding.md R82). -/
inductive Format
  | z | l | lv | e | r
  deriving DecidableEq, Repr

/-- Every opcode, in the order of the opcode map. -/
def Opcode.all : List Opcode :=
  [.cfgw, .init, .stat, .sru, .rd, .rdb, .ard, .wr, .awr, .selu, .incr, .selr, .rslv, .encu]

/-- The opcode number of a command, bits 31:24 of its word (30_encoding.md R86). -/
def Opcode.code : Opcode → BitVec 8
  | .cfgw => 0x01#8
  | .init => 0x02#8
  | .stat => 0x03#8
  | .sru => 0x10#8
  | .rd => 0x11#8
  | .rdb => 0x12#8
  | .ard => 0x13#8
  | .wr => 0x14#8
  | .awr => 0x15#8
  | .selu => 0x20#8
  | .incr => 0x21#8
  | .selr => 0x22#8
  | .rslv => 0x30#8
  | .encu => 0x31#8

/-- The format of a command (30_encoding.md R82, R86). -/
def Opcode.format : Opcode → Format
  | .cfgw => .r
  | .init => .z
  | .stat => .z
  | .sru => .z
  | .rd => .l
  | .rdb => .l
  | .ard => .l
  | .wr => .lv
  | .awr => .lv
  | .selu => .z
  | .incr => .z
  | .selr => .z
  | .rslv => .e
  | .encu => .e

/-- `op = w[31:24]` (30_encoding.md R82). -/
def opField (w : Word) : BitVec 8 := w.extractLsb' 24 8

/-- The element index `e = sel[7:4] = w[23:20]` (30_encoding.md R83). -/
def eltField (w : Word) : Elt := (w.extractLsb' 20 4).toFin

/-- The register number `r = sel[3:0] = w[19:16]` (30_encoding.md R83). -/
def regField (w : Word) : BitVec 4 := w.extractLsb' 16 4

/-- The line index `line = sel[2:0] = w[18:16]` (30_encoding.md R83). -/
def lineField (w : Word) : Line := (w.extractLsb' 16 3).toFin

/-- The immediate `imm = w[15:0]` (30_encoding.md R82). -/
def immField (w : Word) : Half := w.extractLsb' 0 16

/-- Every bit the format marks reserved is 0 (30_encoding.md R82, R88 step 2). -/
def Format.reservedZero (w : Word) : Format → Bool
  | .z => w.extractLsb' 0 24 == 0#24
  | .l => w.extractLsb' 19 5 == 0#5 && w.extractLsb' 0 16 == 0#16
  | .lv => w.extractLsb' 19 5 == 0#5
  | .e => w.extractLsb' 0 20 == 0#20
  | .r => true

/-- The configuration register a pair `(e, r)` names when the element index is not bounded (10_state.md R46). The bound
`e < NENC` of an element register is part of `Instr.wf`. -/
def CfgReg.ofPair (e : Elt) (r : BitVec 4) : Option CfgReg :=
  match r.toNat with
  | 0 => if e = 0 then some .nset else none
  | 1 => if e = 0 then some .initset else none
  | 2 => if e = 0 then some .wrap else none
  | 3 => if e = 0 then some .inccfg else none
  | 8 => some (.pps e)
  | 9 => some (.mul e)
  | 10 => some (.base e)
  | 11 => some (.ofs e)
  | _ => none

/-- The operands of a command, taken from its word (30_encoding.md R83). -/
def operands (w : Word) : Opcode → Option Instr
  | .cfgw => (CfgReg.ofPair (eltField w) (regField w)).map (Instr.cfgw · (immField w))
  | .init => some .init
  | .stat => some .stat
  | .sru => some .sru
  | .rd => some (.rd (lineField w))
  | .rdb => some (.rdb (lineField w))
  | .ard => some (.ard (lineField w))
  | .wr => some (.wr (lineField w) (immField w))
  | .awr => some (.awr (lineField w) (immField w))
  | .selu => some .selu
  | .incr => some .incr
  | .selr => some .selr
  | .rslv => some (.rslv (eltField w))
  | .encu => some (.encu (eltField w))

/-- The opcode a number stands for (30_encoding.md R88 step 1). -/
def Opcode.ofCode (c : BitVec 8) : Option Opcode := Opcode.all.find? (fun op => op.code == c)

/-- The verdict on a word (30_encoding.md R88): the opcode, the reserved bits, the index checks, the value check, in that
order; `none` is the verdict illegal. -/
def decode (p : Params) (w : Word) : Option Instr :=
  match Opcode.ofCode (opField w) with
  | none => none
  | some op =>
    if op.format.reservedZero w then
      match operands w op with
      | none => none
      | some i => if i.wf p then some i else none
    else none

/-! The opcode map as 30_encoding.md R86 prints it: a second view of the first two steps of `decode`. -/

/-- The `mask` column of 30_encoding.md R86. -/
def Opcode.mask : Opcode → Word
  | .cfgw => 0xFF000000#32
  | .init => 0xFFFFFFFF#32
  | .stat => 0xFFFFFFFF#32
  | .sru => 0xFFFFFFFF#32
  | .rd => 0xFFF8FFFF#32
  | .rdb => 0xFFF8FFFF#32
  | .ard => 0xFFF8FFFF#32
  | .wr => 0xFFF80000#32
  | .awr => 0xFFF80000#32
  | .selu => 0xFFFFFFFF#32
  | .incr => 0xFFFFFFFF#32
  | .selr => 0xFFFFFFFF#32
  | .rslv => 0xFF0FFFFF#32
  | .encu => 0xFF0FFFFF#32

/-- The `match` column of 30_encoding.md R86. -/
def Opcode.pattern : Opcode → Word
  | .cfgw => 0x01000000#32
  | .init => 0x02000000#32
  | .stat => 0x03000000#32
  | .sru => 0x10000000#32
  | .rd => 0x11000000#32
  | .rdb => 0x12000000#32
  | .ard => 0x13000000#32
  | .wr => 0x14000000#32
  | .awr => 0x15000000#32
  | .selu => 0x20000000#32
  | .incr => 0x21000000#32
  | .selr => 0x22000000#32
  | .rslv => 0x30000000#32
  | .encu => 0x31000000#32

/-- The word is a candidate for the opcode's row: `w & mask = match` (30_encoding.md R86). -/
def Opcode.matches (op : Opcode) (w : Word) : Prop := w &&& op.mask = op.pattern

/-! The encoder. -/

/-- The opcode of a command. -/
def Instr.opcode : Instr → Opcode
  | .cfgw _ _ => .cfgw
  | .init => .init
  | .stat => .stat
  | .sru => .sru
  | .rd _ => .rd
  | .rdb _ => .rdb
  | .ard _ => .ard
  | .wr _ _ => .wr
  | .awr _ _ => .awr
  | .selu => .selu
  | .incr => .incr
  | .selr => .selr
  | .rslv _ => .rslv
  | .encu _ => .encu

/-- The element index of a register's pair `(e, r)` (10_state.md R46). -/
def CfgReg.pairElt : CfgReg → BitVec 4
  | .nset => 0#4
  | .initset => 0#4
  | .wrap => 0#4
  | .inccfg => 0#4
  | .pps e => BitVec.ofFin e
  | .mul e => BitVec.ofFin e
  | .base e => BitVec.ofFin e
  | .ofs e => BitVec.ofFin e

/-- The register number of a register's pair `(e, r)` (10_state.md R38 to R46). -/
def CfgReg.pairReg : CfgReg → BitVec 4
  | .nset => 0#4
  | .initset => 1#4
  | .wrap => 2#4
  | .inccfg => 3#4
  | .pps _ => 8#4
  | .mul _ => 9#4
  | .base _ => 10#4
  | .ofs _ => 11#4

/-- The `sel` field of a command as its two halves `sel[7:4]` and `sel[3:0]` (30_encoding.md R82). -/
def Instr.selHigh : Instr → BitVec 4
  | .cfgw reg _ => reg.pairElt
  | .init => 0#4
  | .stat => 0#4
  | .sru => 0#4
  | .rd _ => 0#4
  | .rdb _ => 0#4
  | .ard _ => 0#4
  | .wr _ _ => 0#4
  | .awr _ _ => 0#4
  | .selu => 0#4
  | .incr => 0#4
  | .selr => 0#4
  | .rslv e => BitVec.ofFin e
  | .encu e => BitVec.ofFin e

/-- `sel[3:0]`: the register number, or a reserved 0 and the line index (30_encoding.md R82). -/
def Instr.selLow : Instr → BitVec 4
  | .cfgw reg _ => reg.pairReg
  | .init => 0#4
  | .stat => 0#4
  | .sru => 0#4
  | .rd line => BitVec.ofNat 4 line.val
  | .rdb line => BitVec.ofNat 4 line.val
  | .ard line => BitVec.ofNat 4 line.val
  | .wr line _ => BitVec.ofNat 4 line.val
  | .awr line _ => BitVec.ofNat 4 line.val
  | .selu => 0#4
  | .incr => 0#4
  | .selr => 0#4
  | .rslv _ => 0#4
  | .encu _ => 0#4

/-- The `imm` field of a command (30_encoding.md R82). -/
def Instr.imm : Instr → Half
  | .cfgw _ value => value
  | .init => 0#16
  | .stat => 0#16
  | .sru => 0#16
  | .rd _ => 0#16
  | .rdb _ => 0#16
  | .ard _ => 0#16
  | .wr _ v => v
  | .awr _ v => v
  | .selu => 0#16
  | .incr => 0#16
  | .selr => 0#16
  | .rslv _ => 0#16
  | .encu _ => 0#16

/-- The word of a command: `{op, sel, imm}` (30_encoding.md R82). -/
def encode (i : Instr) : Word := i.opcode.code ++ i.selHigh ++ i.selLow ++ i.imm

/-! Assembler forms (30_encoding.md R92); none is a command of its own. -/

/-- `ADDR(number, channel, cable)` (30_encoding.md R92). -/
def asmAddr (number channel cable : Nat) : Nat := (cable <<< 11) ||| (channel <<< 7) ||| number

/-- `INCSRC(act, src, line)` (30_encoding.md R92). -/
def asmIncsrc (act src line : Nat) : Nat := (line <<< 2) ||| (src <<< 1) ||| act

/-- `TICK`: one polling cycle in the reference order, `2 + NENC` commands (30_encoding.md R92). -/
def asmTick (p : Params) : List Instr :=
  [.sru, .selu] ++ (List.range p.nenc).map fun e => .encu (Fin.ofNat 16 e)

/-! The assembler's text (30_encoding.md R91). -/

/-- An element register's name with its index in brackets. -/
def indexedName (name : String) (e : Elt) : String := name ++ "[" ++ toString e.val ++ "]"

/-- The name of a configuration register (30_encoding.md R91). -/
def CfgReg.text : CfgReg → String
  | .nset => "NSET"
  | .initset => "INITSET"
  | .wrap => "WRAP"
  | .inccfg => "INCCFG"
  | .pps e => indexedName "PPS" e
  | .mul e => indexedName "MUL" e
  | .base e => indexedName "BASE" e
  | .ofs e => indexedName "OFS" e

/-- The line of assembler text of a command, its numbers decimal (30_encoding.md R91). -/
def Instr.text : Instr → String
  | .cfgw reg value => "CFGW " ++ reg.text ++ ", " ++ toString value.toNat
  | .init => "INIT"
  | .stat => "STAT"
  | .sru => "SRU"
  | .rd line => "RD " ++ toString line.val
  | .rdb line => "RDB " ++ toString line.val
  | .ard line => "ARD " ++ toString line.val
  | .wr line v => "WR " ++ toString line.val ++ ", " ++ toString v.toNat
  | .awr line v => "AWR " ++ toString line.val ++ ", " ++ toString v.toNat
  | .selu => "SELU"
  | .incr => "INCR"
  | .selr => "SELR"
  | .rslv e => "RSLV " ++ toString e.val
  | .encu e => "ENCU " ++ toString e.val

/-- The word whose low `nbits` bits are those of `w`, every bit above them 0. -/
def tableWord (nbits w : Nat) : Word := BitVec.ofNat 32 (w % 2 ^ nbits)

/-- The instruction of a word of the opcode table on the default instance (notes/assumptions/19.md). -/
def decodeTableWord (nbits w : Nat) : Option Instr := decode Params.default (tableWord nbits w)

end Sys2Proof
end

