-- ==== Sys2Proof/Machine/State.lean ====
section
/-! DEFINITION. The state of a CSIB (10_state.md R20 to R47), the model's own fields beside it, the reasons a step can stop,
and the state after reset (10_state.md R47, 70_reset_and_hazards.md R230). -/

namespace Sys2Proof.Machine

/-- The lifecycle phase, PHASE (10_state.md R21). Its code 3, which never occurs, has no constructor. -/
inductive Phase
  | config
  | run
  | rejected
  deriving DecidableEq, Repr

/-- The five construction errors, codes 1 to 5 of ERR and of the status (30_encoding.md R85, 60_exceptions.md R201 to R205). -/
inductive InitError
  | invalidQuantization
  | invalidSettingCount
  | outOfRangeSetting
  | invalidMultiplier
  | invalidIncrementLine
  deriving DecidableEq, Repr

/-- The three output pins of the SRR (10_state.md R26). -/
inductive Pin
  | loadN
  | ceN
  | clk
  deriving DecidableEq, Repr

/-- A pair `(delta, addr)` of the event trace (10_state.md R36). The delta is exact (41_encoder.md R125). -/
structure Event where
  delta : Int
  addr : Address
  deriving DecidableEq, Repr

/-- The registers of one encoder element (10_state.md R30, R42 to R45). -/
structure Elem where
  /-- `PREV[e]`, the signed value of its `POS_W` bits. -/
  prev : Int
  /-- `PPS[e]`. -/
  pps : BitVec 16
  /-- `MUL[e]`. -/
  mul : BitVec 16
  /-- `BASE[e]`. -/
  base : Address
  /-- `OFS[e]`. -/
  ofs : Address
  deriving DecidableEq, Repr

/-- What the host does next at the block's inputs: present a command word (30_encoding.md R80) or assert `rst`
(70_reset_and_hazards.md R230). -/
inductive PortInput
  | command (w : Word)
  | reset
  deriving DecidableEq, Repr

/-- The state (10_state.md R20), and after `-- the model's own fields` what the model adds to it. -/
structure State where
  /-- PHASE, R21. -/
  phase : Phase
  /-- ERR, R22: `none` is the code 0. -/
  err : Option InitError
  /-- BUF, R23: bits from `N` up do not exist and are held 0. -/
  buf : BitVec 8
  /-- SHR, R24: bits from `N` up do not exist and are held 0. -/
  shr : BitVec 8
  /-- SNAP, R25. -/
  snap : Bool
  /-- LOAD_n, R26. -/
  loadN : Bool
  /-- CE_n, R26. -/
  ceN : Bool
  /-- CLK, R26. -/
  clk : Bool
  /-- PH, R27. -/
  ph : BitVec 6
  /-- CUR, R28. -/
  cur : BitVec 8
  /-- PLV, R29. -/
  plv : Bool
  /-- NSET, R38. -/
  nset : BitVec 8
  /-- INITSET, R39. -/
  initset : BitVec 8
  /-- WRAP, R40. -/
  wrap : Bool
  /-- INCCFG, R41. -/
  inccfg : BitVec 5
  /-- The registers of the elements `0 .. NENC-1`, R30 and R42 to R45. -/
  elems : List Elem
  /-- RESP, R34. -/
  resp : Word
  /-- The strobe `resp_valid` (30_encoding.md R80): the last step ended with a response. -/
  respValid : Bool
  /-- The strobe `ev_valid`, R36 and R47. -/
  evValid : Bool
  /-- PT, R35, oldest first. -/
  pt : List (Pin × Bool)
  /-- EV, R36, oldest first. -/
  ev : List Event
  -- the model's own fields
  /-- The parameters of the instance; no step changes them (00_scope.md R5). -/
  params : Params
  /-- Every response given since reset, oldest first (30_encoding.md R80). -/
  responses : List Word
  /-- What the host has yet to do at the inputs, next first. -/
  port : List PortInput
  /-- The levels `DATA` gives at its next samples, next first (10_state.md R33). -/
  dataIn : List Bool
  /-- The levels `inc_raw` gives at its next samples, next first (10_state.md R32). -/
  incIn : List Bool
  /-- The positions the `pos_in` inputs give at the next samples, next first (10_state.md R31). -/
  posIn : List Int
  /-- How many samples have been free values of Config. -/
  draws : Nat
  deriving DecidableEq, Repr

/-- Why the machine stops. Each constructor stands for a state the spec says never occurs; none is reached from a state that
meets `Sys2Proof.Safety.Inv` (notes/assumptions/12.md). All four are safe: the machine stops where no rule gives a value. -/
inductive Fault
  /-- Raised by `ENCU e` in a state with `PHASE = RUN` and `PPS[e] = 0`, which 40_config.md R104 rules out. Safe. -/
  | divisionByZero
  /-- Raised by `SELU` in a state with `PHASE = RUN`, `SRC = 1` and `LINE ≥ N`, which 40_config.md R104 rules out. Safe. -/
  | lineOutOfRange
  /-- Raised by `RSLV e`, `ENCU e` and `CFGW` to a register of `e < NENC` in a state that holds no registers for `e`. Safe. -/
  | noSuchElement
  /-- Raised by `step` in a state with `PH > 4 + 3N`, which 10_state.md R27 rules out. Safe. -/
  | sequencerOutOfRange
  deriving DecidableEq, Repr

/-- Why an instruction has no meaning. -/
inductive Refusal
  /-- Raised by `exec` for an instruction whose meaning is not written yet; no instruction of this model is left so. Safe. -/
  | notModelled (mnemonic : String)
  deriving DecidableEq, Repr

/-- An encoder element after reset (10_state.md R47). -/
def Elem.reset : Elem := { prev := 0, pps := 0#16, mul := 0#16, base := 0#15, ofs := 0#15 }

/-- The state of an instance after reset (10_state.md R47, 70_reset_and_hazards.md R230), with nothing presented at the
inputs. -/
def State.resetOf (p : Params) : State where
  phase := .config
  err := none
  buf := 0#8
  shr := 0#8
  snap := false
  loadN := true
  ceN := true
  clk := false
  ph := 0#6
  cur := 0#8
  plv := true
  nset := 0#8
  initset := 0#8
  wrap := false
  inccfg := 0#5
  elems := List.replicate p.nenc Elem.reset
  resp := 0#32
  respValid := false
  evValid := false
  pt := []
  ev := []
  params := p
  responses := []
  port := []
  dataIn := []
  incIn := []
  posIn := []
  draws := 0

/-- The machine right after reset: the instance with the default parameters (00_scope.md R5). -/
def State.reset : State := State.resetOf Params.default

end Sys2Proof.Machine
end

