-- ==== Sys2Proof/Machine/Flags.lean ====
section
/-! DEFINITION. The block's flags and codes: PHASE, ERR, SNAP as STAT shows them, the status codes, the response word, and
which phases a command is performed in. -/

namespace Sys2Proof.Machine

/-- The code of PHASE (10_state.md R21). -/
def Phase.code : Phase → BitVec 2
  | .config => 0#2
  | .run => 1#2
  | .rejected => 2#2

/-- The code of a construction error (30_encoding.md R85). -/
def InitError.code : InitError → BitVec 4
  | .invalidQuantization => 1#4
  | .invalidSettingCount => 2#4
  | .outOfRangeSetting => 3#4
  | .invalidMultiplier => 4#4
  | .invalidIncrementLine => 5#4

/-- The code ERR holds (10_state.md R22). -/
def errCode : Option InitError → BitVec 4
  | none => 0#4
  | some c => c.code

/-- The exceptions of 60_exceptions.md R200: the construction errors and the two refusals. -/
inductive Exc
  | construction (c : InitError)
  | illegalCommand
  | wrongPhase
  deriving DecidableEq, Repr

/-- The status code of an exception (30_encoding.md R85). -/
def Exc.status : Exc → BitVec 4
  | .construction c => c.code
  | .illegalCommand => 8#4
  | .wrongPhase => 9#4

/-- The status code of a command that was performed (30_encoding.md R85). -/
def statusOk : BitVec 4 := 0#4

/-- The response word `{status, 12'd0, value}` (30_encoding.md R84). -/
def responseWord (status : BitVec 4) (value : Half) : Word := status ++ 0#12 ++ value

/-- A bit zero-extended into a response value (30_encoding.md R96). -/
def bitValue (b : Bool) : Half := if b then 1#16 else 0#16

/-- The value of STAT, `{9'd0, SNAP, ERR, PHASE}` (40_config.md R105). -/
def statValue (snap : Bool) (err : Option InitError) (phase : Phase) : Half :=
  0#9 ++ BitVec.ofBool snap ++ errCode err ++ phase.code

/-- The phases a command is performed in: the three patterns of the rows of 60_exceptions.md R207. -/
inductive Need
  | configOnly
  | runOnly
  | anyPhase
  deriving DecidableEq, Repr

/-- The table of 60_exceptions.md R207. -/
def Need.allows : Need → Phase → Bool
  | .configOnly, .config => true
  | .configOnly, .run => false
  | .configOnly, .rejected => false
  | .runOnly, .config => false
  | .runOnly, .run => true
  | .runOnly, .rejected => false
  | .anyPhase, _ => true

end Sys2Proof.Machine
end

