-- ==== Sys2Proof/Machine/Operands.lean ====
section
/-! DEFINITION. How the packed registers are taken apart, how the line space and the configuration space are read and
written, and the signed arithmetic of positions. -/

namespace Sys2Proof.Machine

/-! Addresses (10_state.md R44, 42_resolver.md R140). -/

/-- The controller or note number, bits 6:0. -/
def addrNumber (a : Address) : BitVec 7 := a.extractLsb' 0 7

/-- The channel, bits 10:7. -/
def addrChannel (a : Address) : BitVec 4 := a.extractLsb' 7 4

/-- The cable number, bits 14:11. -/
def addrCable (a : Address) : BitVec 4 := a.extractLsb' 11 4

/-- `{cable, channel, number}`. -/
def packAddress (cable channel : BitVec 4) (number : BitVec 7) : Address := cable ++ channel ++ number

/-! The increment-source register INCCFG (10_state.md R41). -/

/-- ACT, bit 0: the active level. -/
def incAct (c : BitVec 5) : Bool := c.getLsbD 0

/-- SRC, bit 1: the raw level comes from a buffered line. -/
def incSrc (c : BitVec 5) : Bool := c.getLsbD 1

/-- LINE, bits 4:2. -/
def incLine (c : BitVec 5) : Nat := (c.extractLsb' 2 3).toNat

/-! The line space (20_memory.md R60, R63, R64). -/

/-- `MemRead(i, 1)`: bit `i` of a snapshot. -/
def snapshotBit (b : BitVec 8) (i : Nat) : Bool := b.getLsbD i

/-- The snapshot with bit `i` written (44_shiftreg.md R175: `SHR[i] <- d`). -/
def setSnapshotBit (b : BitVec 8) (i : Nat) (d : Bool) : BitVec 8 :=
  if d then b ||| (1#8 <<< i) else b &&& ~~~(1#8 <<< i)

/-- `BUF[i]` for a line of the instance, nothing for an index `N` or above (20_memory.md R60). -/
def State.line? (s : State) (i : Nat) : Option Bool :=
  if i < s.params.n then some (snapshotBit s.buf i) else none

/-! Signed positions (00_scope.md R8). -/

/-- `toInt(ofInt_W(z))`: the value of the `W`-bit two's complement pattern of the integer `z`. -/
def wrapInt (w : Nat) (z : Int) : Int := z.bmod (2 ^ w)

/-- `tdiv(a, b)`: division rounded toward zero (41_encoder.md R121). -/
def tdivByNat (a : Int) (b : Nat) : Int := a.tdiv (b : Int)

/-! The registers of an encoder element. -/

/-- The state with the registers of element `e` replaced. -/
def State.setElem (s : State) (e : Nat) (el : Elem) : State := { s with elems := s.elems.set e el }

/-- `reg(e, r) <- value[w-1:0]` (40_config.md R101) for an element register, applied to the element's registers. -/
def State.updElem? (s : State) (e : Elt) (f : Elem → Elem) : Option State :=
  match s.elems[e.val]? with
  | some el => some (s.setElem e.val (f el))
  | none => none

/-- `reg(e, r) <- value[w-1:0]` (40_config.md R101); nothing when the state holds no registers for the element. -/
def State.writeReg? (s : State) (reg : CfgReg) (value : Half) : Option State :=
  match reg with
  | .nset => some { s with nset := value.setWidth 8 }
  | .initset => some { s with initset := value.setWidth 8 }
  | .wrap => some { s with wrap := value.getLsbD 0 }
  | .inccfg => some { s with inccfg := value.setWidth 5 }
  | .pps e => s.updElem? e fun el => { el with pps := value }
  | .mul e => s.updElem? e fun el => { el with mul := value }
  | .base e => s.updElem? e fun el => { el with base := value.setWidth 15 }
  | .ofs e => s.updElem? e fun el => { el with ofs := value.setWidth 15 }

end Sys2Proof.Machine
end

