-- ==== Sys2Proof/Machine/Ops.lean ====
section
/-! DEFINITION. The operations every meaning is made of: responding, taking an exception, performing a command behind its
refusals, driving a pin, sampling an input, emitting an event, and reset. -/

namespace Sys2Proof.Machine

/-- What a meaning answers. -/
abbrev Result := Host.Outcome State Fault Refusal

/-- `respond(status, value)`: RESP is written and presented (00_scope.md R9, 30_encoding.md R80, R84). A beat on the event
port is over before the response (30_encoding.md R93). -/
def State.respond (s : State) (status : BitVec 4) (value : Half) : State :=
  { s with
    resp := responseWord status value
    respValid := true
    evValid := false
    responses := s.responses ++ [responseWord status value] }

/-- `respond(0, value)`. -/
def State.respondOk (s : State) (value : Half) : State := s.respond statusOk value

/-- Taking an exception (60_exceptions.md R209): a construction error rejects the object and records its code in ERR, a
refusal changes nothing; both respond with their code and the value 0. Nothing is saved and no control is transferred, and
nothing returns from one (R210). -/
def State.raise (s : State) : Exc → State
  | .construction c => { s with phase := .rejected, err := some c }.respond c.code 0#16
  | .illegalCommand => s.respond (Exc.status .illegalCommand) 0#16
  | .wrongPhase => s.respond (Exc.status .wrongPhase) 0#16

/-- Perform a command behind the refusals common to all commands, in their order of priority (60_exceptions.md R206 to R208).
`operandsOk` is the index check of the command; `body` is the effect after both checks have passed. -/
def perform (operandsOk : Bool) (need : Need) (s : State) (body : Result) : Result :=
  if operandsOk then
    if need.allows s.phase then body else .next (s.raise .wrongPhase)
  else .next (s.raise .illegalCommand)

/-- `pin(P) <- l`: drive the pin and append to PT (00_scope.md R9). -/
def State.drive (s : State) (p : Pin) (l : Bool) : State :=
  match p with
  | .loadN => { s with loadN := l, pt := s.pt ++ [(p, l)] }
  | .ceN => { s with ceN := l, pt := s.pt ++ [(p, l)] }
  | .clk => { s with clk := l, pt := s.pt ++ [(p, l)] }

/-- The level `sample(DATA)` gives (10_state.md R33). -/
def State.dataLevel (s : State) : Bool :=
  match s.dataIn with
  | d :: _ => d
  | [] => Config.freeData s.draws

/-- The state after `sample(DATA)`: one draw is used up. -/
def State.dataTaken (s : State) : State :=
  match s.dataIn with
  | _ :: rest => { s with dataIn := rest }
  | [] => { s with draws := s.draws + 1 }

/-- The level `sample(inc_raw)` gives (10_state.md R32). -/
def State.incLevel (s : State) : Bool :=
  match s.incIn with
  | d :: _ => d
  | [] => Config.freeInc s.draws

/-- The state after `sample(inc_raw)`: one draw is used up. -/
def State.incTaken (s : State) : State :=
  match s.incIn with
  | _ :: rest => { s with incIn := rest }
  | [] => { s with draws := s.draws + 1 }

/-- `toInt(pos_in[e])`, one sample: a value of the signed `POS_W`-bit range (10_state.md R31). -/
def State.posSample (s : State) : Int :=
  match s.posIn with
  | z :: _ => wrapInt s.params.posW z
  | [] => wrapInt s.params.posW (Config.freePos s.draws)

/-- The state after the sample of a position: one draw is used up. -/
def State.posTaken (s : State) : State :=
  match s.posIn with
  | _ :: rest => { s with posIn := rest }
  | [] => { s with draws := s.draws + 1 }

/-- `emit(delta, addr)`: one beat on the event port, appended to EV (00_scope.md R9, 30_encoding.md R93). -/
def State.emit (s : State) (delta : Int) (addr : Address) : State :=
  { s with evValid := true, ev := s.ev ++ [{ delta := delta, addr := addr }] }

/-- Reset (70_reset_and_hazards.md R230, R231): every element of state takes its value of 10_state.md R47, whatever was in
progress. The instance and what the environment has yet to do are not state of the block and stay. -/
def State.hardReset (s : State) : State :=
  { State.resetOf s.params with
    port := s.port
    dataIn := s.dataIn
    incIn := s.incIn
    posIn := s.posIn
    draws := s.draws }

end Sys2Proof.Machine
end

