-- ==== Sys2Proof/Machine/Construct.lean ====
section
/-! DEFINITION. The construction commands CFGW, INIT and STAT (40_config.md). -/

namespace Sys2Proof.Machine

/-- `check()`: the first construction error whose condition holds, in the order of 40_config.md R102. -/
def constructionCheck (s : State) : Option InitError :=
  if s.elems.any (fun el => el.pps == 0#16) then some .invalidQuantization
  else if s.nset = 0#8 then some .invalidSettingCount
  else if s.nset.toNat ≤ s.initset.toNat then some .outOfRangeSetting
  else if s.elems.any (fun el => el.mul == 0#16) then some .invalidMultiplier
  else if incSrc s.inccfg && decide (s.params.n ≤ incLine s.inccfg) then some .invalidIncrementLine
  else none

/-- The registers a successful INIT loads (40_config.md R103). -/
def State.construct (s : State) : State :=
  { s with
    phase := .run
    cur := s.initset
    plv := !incAct s.inccfg
    elems := s.elems.map fun el => { el with prev := 0 } }

/-- The operand check of CFGW (30_encoding.md R88 steps 3 and 4). -/
def cfgwOperandsOk (s : State) (reg : CfgReg) (value : Half) : Bool :=
  reg.exists? s.params && decide (value.toNat < 2 ^ reg.width)

/-- `CFGW (e,r), value` (40_config.md R101). -/
def execCfgw (reg : CfgReg) (value : Half) (s : State) : Result :=
  perform (cfgwOperandsOk s reg value) .configOnly s <|
    match s.writeReg? reg value with
    | some s' => .next (s'.respondOk 0#16)
    | none => .fault .noSuchElement

/-- `INIT` (40_config.md R103). -/
def execInit (s : State) : Result :=
  perform true .configOnly s <|
    match constructionCheck s with
    | none => .next (s.construct.respondOk 0#16)
    | some c => .next (s.raise (.construction c))

/-- `STAT` (40_config.md R105). -/
def execStat (s : State) : Result :=
  perform true .anyPhase s (.next (s.respondOk (statValue s.snap s.err s.phase)))

end Sys2Proof.Machine
end

