-- ==== Sys2Proof/Machine/Resolver.lean ====
section
/-! DEFINITION. The bank-offset resolver and the command RSLV (42_resolver.md). -/

namespace Sys2Proof.Machine

/-- The result of a field sum: the sum when it is in range, else `ovf(s, f)` of a field of width `w` (42_resolver.md R141,
R142). -/
def fieldResult (ovf : AddrOvf) (w : Nat) (sum : Nat) : BitVec w :=
  if sum ≤ 2 ^ w - 1 then BitVec.ofNat w sum
  else
    match ovf with
    | .saturate => BitVec.ofNat w (2 ^ w - 1)
    | .truncate => BitVec.ofNat w (sum % 2 ^ w)

/-- `s_f = BASE.f + CUR * OFS.f`, a natural number (42_resolver.md R141). -/
def fieldSum (cur : BitVec 8) (base ofs : Nat) : Nat := base + cur.toNat * ofs

/-- `Resolve` on a setting, a base address and an offset, field by field (42_resolver.md R141). -/
def resolve (ovf : AddrOvf) (cur : BitVec 8) (base ofs : Address) : Address :=
  packAddress
    (fieldResult ovf 4 (fieldSum cur (addrCable base).toNat (addrCable ofs).toNat))
    (fieldResult ovf 4 (fieldSum cur (addrChannel base).toNat (addrChannel ofs).toNat))
    (fieldResult ovf 7 (fieldSum cur (addrNumber base).toNat (addrNumber ofs).toNat))

/-- `Resolve(e)` under the present setting, for the registers of an element (42_resolver.md R141, R144). -/
def State.resolved (s : State) (el : Elem) : Address := resolve s.params.addrOvf s.cur el.base el.ofs

/-- `RSLV e` (42_resolver.md R143). -/
def execRslv (e : Elt) (s : State) : Result :=
  perform (decide (e.val < s.params.nenc)) .runOnly s <|
    match s.elems[e.val]? with
    | some el => .next (s.respondOk ((s.resolved el).setWidth 16))
    | none => .fault .noSuchElement

end Sys2Proof.Machine
end

