-- ==== Sys2Proof/Machine/Encoder.lean ====
section
/-! DEFINITION. The encoder translator and the command ENCU (41_encoder.md). -/

namespace Sys2Proof.Machine

/-- The wrapping difference `d` of a sample and PREV (41_encoder.md R120 step 2, R122). -/
def positionDiff (posW : Nat) (c prev : Int) : Int := wrapInt posW (c - prev)

/-- The quotient `q` (41_encoder.md R120 step 3, R121). -/
def stepsMoved (d : Int) (pps : BitVec 16) : Int := tdivByNat d pps.toNat

/-- The delta of an event, exact (41_encoder.md R120 step 6, R125). -/
def eventDelta (q : Int) (mul : BitVec 16) : Int := q * (mul.toNat : Int)

/-- PREV after an event: a whole number of steps further (41_encoder.md R120 step 8, R124). -/
def advancePrev (posW : Nat) (prev q : Int) (pps : BitVec 16) : Int := wrapInt posW (prev + q * (pps.toNat : Int))

/-- Steps 4 to 9 of 41_encoder.md R120, for the quotient `q` of an element with the registers `el`. -/
def State.translate (s : State) (e : Elt) (el : Elem) (q : Int) : State :=
  if q = 0 then s.respondOk 0#16
  else
    ((s.emit (eventDelta q el.mul) (s.resolved el)).setElem e.val
      { el with prev := advancePrev s.params.posW el.prev q el.pps }).respondOk 1#16

/-- `ENCU e` (41_encoder.md R120). The position is sampled once (R129). -/
def execEncu (e : Elt) (s : State) : Result :=
  perform (decide (e.val < s.params.nenc)) .runOnly s <|
    match s.elems[e.val]? with
    | some el =>
      if el.pps = 0#16 then .fault .divisionByZero
      else
        .next (s.posTaken.translate e el
          (stepsMoved (positionDiff s.params.posW s.posSample el.prev) el.pps))
    | none => .fault .noSuchElement

end Sys2Proof.Machine
end

