-- ==== Sys2Proof/Machine/Selector.lean ====
section
/-! DEFINITION. The increment detector, the bank selector and the commands SELU, INCR and SELR (43_selector.md). -/

namespace Sys2Proof.Machine

/-- The detector's tri-state answer with its two reserved codes (43_selector.md R150). -/
inductive Det
  | none
  | increment
  | reserved2
  | reserved3
  deriving DecidableEq, Repr

/-- The code of an answer (43_selector.md R150). -/
def Det.code : Det → BitVec 2
  | .none => 0#2
  | .increment => 1#2
  | .reserved2 => 2#2
  | .reserved3 => 3#2

/-- The edge rule (43_selector.md R153): Increment exactly when the level is the active one and the level before was not. -/
def detect (act plv lvl : Bool) : Det := if lvl = act ∧ plv ≠ act then .increment else .none

/-- The transition `next` (43_selector.md R155). -/
def nextSetting (nset : BitVec 8) (wrap : Bool) (cur : BitVec 8) : BitVec 8 :=
  if cur.toNat + 1 = nset.toNat then
    if wrap then 0#8 else nset - 1#8
  else BitVec.ofNat 8 (cur.toNat + 1)

/-- CUR after the transition (43_selector.md R155). -/
def State.increment (s : State) : State := { s with cur := nextSetting s.nset s.wrap s.cur }

/-- What the selector does with the detector's answer (43_selector.md R160). -/
def State.applyDet (s : State) : Det → State
  | .increment => s.increment
  | .none => s
  | .reserved2 => s
  | .reserved3 => s

/-- `PLV <- lvl` (43_selector.md R153). -/
def State.setPlv (s : State) (lvl : Bool) : State := { s with plv := lvl }

/-- The value of SELU, `{CUR_after, 6'd0, det}` (43_selector.md R151 step 5). -/
def seluValue (cur : BitVec 8) (det : Det) : Half := cur ++ 0#6 ++ det.code

/-- Steps 2 to 5 of SELU for the raw level `lvl` (43_selector.md R151). -/
def State.selectorUpdate (s : State) (lvl : Bool) : State :=
  let det := detect (incAct s.inccfg) s.plv lvl
  let after := (s.setPlv lvl).applyDet det
  after.respondOk (seluValue after.cur det)

/-- `SELU` (43_selector.md R151): the increment source is queried once (R152). -/
def execSelu (s : State) : Result :=
  perform true .runOnly s <|
    if incSrc s.inccfg then
      match s.line? (incLine s.inccfg) with
      | some lvl => .next (s.selectorUpdate lvl)
      | none => .fault .lineOutOfRange
    else .next (s.incTaken.selectorUpdate s.incLevel)

/-- `INCR` (43_selector.md R157). -/
def execIncr (s : State) : Result :=
  perform true .runOnly s (.next (s.increment.respondOk (s.increment.cur.setWidth 16)))

/-- `SELR` (43_selector.md R158). -/
def execSelr (s : State) : Result :=
  perform true .runOnly s (.next (s.respondOk (s.cur.setWidth 16)))

end Sys2Proof.Machine
end

