-- ==== Sys2Proof/Machine/ShiftReg.lean ====
section
/-! DEFINITION. The shift-register reader: the command SRU as one step, its micro-operations, and the commands RD, RDB, ARD,
WR and AWR (44_shiftreg.md). -/

namespace Sys2Proof.Machine

/-- `SHR[i] <- sample(DATA)` (44_shiftreg.md R175). -/
def State.sampleBit (s : State) (i : Nat) : State :=
  { s.dataTaken with shr := setSnapshotBit s.shr i s.dataLevel }

/-- Part 1 of SRU, `prepareReading()` (44_shiftreg.md R174). -/
def State.prepareReading (s : State) : State := ((s.drive .loadN false).drive .loadN true).drive .ceN false

/-- One bit period: one sample and one clock pulse. The order of the sample and the rising edge is the open parameter
SAMPLE_POINT; the state after the period is the same for both (44_shiftreg.md R175), so it is not asked here. -/
def State.bitPeriod (s : State) (i : Nat) : State := ((s.sampleBit i).drive .clk true).drive .clk false

/-- Part 2 of SRU: the bit periods `0 .. k-1`, least significant first (44_shiftreg.md R175). -/
def State.shiftIn (s : State) : Nat → State
  | 0 => s
  | k + 1 => (s.shiftIn k).bitPeriod k

/-- The commit: `BUF <- SHR`, all bits at once, and `SNAP <- 1` (44_shiftreg.md R180). -/
def State.commit (s : State) : State := { s with buf := s.shr, snap := true }

/-- Part 3 of SRU, `afterReading()` (44_shiftreg.md R176). -/
def State.afterReading (s : State) : State := s.drive .ceN true

/-- `PH <- k` (10_state.md R27). -/
def State.setPh (s : State) (k : BitVec 6) : State := { s with ph := k }

/-- `respond(0, zext_16(BUF))` (44_shiftreg.md R171). -/
def State.respondSnapshot (s : State) : State := s.respondOk (s.buf.setWidth 16)

/-- The whole effect of SRU (44_shiftreg.md R171), with the sequencer idle at the end. -/
def State.takeSnapshot (s : State) : State :=
  ((s.prepareReading.shiftIn s.params.n).commit.afterReading.setPh 0#6).respondSnapshot

/-- `SRU` (44_shiftreg.md R171). -/
def execSru (s : State) : Result := perform true .runOnly s (.next s.takeSnapshot)

/-- Issue of SRU to the sequencer: `PH <- 1` (44_shiftreg.md R173). -/
def State.startSequencer (s : State) : State := s.setPh 1#6

/-- The `r`-th of the three rows of bit `i` in the phase table (44_shiftreg.md R173). -/
def State.bitRow (s : State) (sp : SamplePoint) (i r : Nat) : State :=
  match r with
  | 0 =>
    match sp with
    | .beforeRise => s.sampleBit i
    | .whileHigh => s.drive .clk true
  | 1 =>
    match sp with
    | .beforeRise => s.drive .clk true
    | .whileHigh => s.sampleBit i
  | _ => s.drive .clk false

/-- `PH <- PH + 1`. -/
def State.nextPhase (s : State) : State := s.setPh (s.ph + 1#6)

/-- The last row of the phase table (44_shiftreg.md R173): commit, disable, go idle, respond. -/
def State.lastPhase (s : State) : State := (s.commit.afterReading.setPh 0#6).respondSnapshot

/-- One micro-operation, the row of the phase table for the present value of PH (44_shiftreg.md R173). Row 0 is no row: the
sequencer is idle and nothing happens. -/
def microStep (sp : SamplePoint) (s : State) : Result :=
  let k := s.ph.toNat
  if k = 0 then .next s
  else if k = 1 then .next (s.drive .loadN false).nextPhase
  else if k = 2 then .next (s.drive .loadN true).nextPhase
  else if k = 3 then .next (s.drive .ceN false).nextPhase
  else if k < 4 + 3 * s.params.n then .next (s.bitRow sp ((k - 4) / 3) ((k - 4) % 3)).nextPhase
  else if k = 4 + 3 * s.params.n then .next s.lastPhase
  else .fault .sequencerOutOfRange

/-- `k` micro-operations, one after the other, with nothing between them (44_shiftreg.md R181). -/
def microSteps (sp : SamplePoint) : Nat → State → Result
  | 0, s => .next s
  | k + 1, s =>
    match microStep sp s with
    | .next s' => microSteps sp k s'
    | .fault r => .fault r
    | .refused r => .refused r

/-- The micro-operations of an SRU, `4 + 3N` (44_shiftreg.md R173). -/
def sruPhases (p : Params) : Nat := 4 + 3 * p.n

/-- The clocks an SRU holds the command port, `(4 + 3N) · T_PH` (44_shiftreg.md R179). -/
def sruClocks (p : Params) : Nat := sruPhases p * p.tPh

/-- `RD line` (44_shiftreg.md R183). -/
def execRd (line : Line) (s : State) : Result :=
  perform (decide (line.val < s.params.n)) .runOnly s (.next (s.respondOk (bitValue (snapshotBit s.buf line.val))))

/-- `RDB line` (44_shiftreg.md R184). -/
def execRdb (line : Line) (s : State) : Result :=
  perform (decide (line.val < s.params.n)) .runOnly s (.next (s.respondOk (bitValue (snapshotBit s.buf line.val))))

/-- The constant an unsupported operation answers (44_shiftreg.md R186 to R189). -/
def unsupportedSentinel : Half := 0#16

/-- `ARD line` (44_shiftreg.md R186). -/
def execArd (_line : Line) (s : State) : Result :=
  perform true .runOnly s (.next (s.respondOk unsupportedSentinel))

/-- `WR line, v` (44_shiftreg.md R187): a no-op. -/
def execWr (_line : Line) (_v : Half) (s : State) : Result :=
  perform true .runOnly s (.next (s.respondOk unsupportedSentinel))

/-- `AWR line, v` (44_shiftreg.md R188): a no-op. -/
def execAwr (_line : Line) (_v : Half) (s : State) : Result :=
  perform true .runOnly s (.next (s.respondOk unsupportedSentinel))

end Sys2Proof.Machine
end

