-- ==== Sys2Proof/Machine/Dispatch.lean ====
section
/-! DEFINITION. One arm per command. -/

namespace Sys2Proof.Machine

def exec (i : Instr) (s : State) : Host.Outcome State Fault Refusal :=
  match i with
  | .cfgw reg value => Sys2Proof.Machine.execCfgw reg value s
  | .init => Sys2Proof.Machine.execInit s
  | .stat => Sys2Proof.Machine.execStat s
  | .sru => Sys2Proof.Machine.execSru s
  | .rd line => Sys2Proof.Machine.execRd line s
  | .rdb line => Sys2Proof.Machine.execRdb line s
  | .ard line => Sys2Proof.Machine.execArd line s
  | .wr line v => Sys2Proof.Machine.execWr line v s
  | .awr line v => Sys2Proof.Machine.execAwr line v s
  | .selu => Sys2Proof.Machine.execSelu s
  | .incr => Sys2Proof.Machine.execIncr s
  | .selr => Sys2Proof.Machine.execSelr s
  | .rslv e => Sys2Proof.Machine.execRslv e s
  | .encu e => Sys2Proof.Machine.execEncu e s

end Sys2Proof.Machine
end

