-- ==== Sys2Proof/Machine/Port.lean ====
section
/-! DEFINITION. The command port: what the next step has to do (30_encoding.md R80, R81; 70_reset_and_hazards.md R230, R231). -/

namespace Sys2Proof.Machine

/-- `cmd_ready` between two steps: the port accepts a command exactly when the sequencer is idle (30_encoding.md R81). -/
def State.cmdReady (s : State) : Bool := s.ph == 0#6

/-- What the next step does. -/
inductive Turn
  /-- `rst` is asserted; the host's later inputs follow. -/
  | reset (rest : List PortInput)
  /-- `PH ≠ 0`: the sequencer performs one micro-operation (44_shiftreg.md R181). -/
  | sequencer
  /-- A command is issued (30_encoding.md R80). -/
  | issue (w : Word) (rest : List PortInput)
  /-- The host presents nothing. -/
  | idle
  deriving DecidableEq, Repr

/-- Reset is taken at once (70_reset_and_hazards.md R231); else the sequencer runs while `PH ≠ 0`, and a command that is
offered meanwhile is held (30_encoding.md R81). -/
def State.turn (s : State) : Turn :=
  match s.port with
  | .reset :: rest => .reset rest
  | .command w :: rest => if s.cmdReady then .issue w rest else .sequencer
  | [] => if s.cmdReady then .idle else .sequencer

/-- The strobes of the last step are over. -/
def State.strobesLow (s : State) : State := { s with respValid := false, evValid := false }

/-- The state in which an issued command begins: its word is taken from the port. -/
def State.accept (s : State) (rest : List PortInput) : State := { s.strobesLow with port := rest }

/-- The state after `rst`, with the host's later inputs. -/
def State.takeReset (s : State) (rest : List PortInput) : State := { s.hardReset with port := rest }

/-- The state in which the next step issues exactly the word `w`: the sequencer is idle and `w` is presented next. -/
def State.presenting (s : State) (w : Word) : State := { s with ph := 0#6, port := .command w :: s.port }

end Sys2Proof.Machine
end

