-- ==== Sys2Proof/Machine/Step.lean ====
section
/-! DEFINITION. One step of the machine. -/

namespace Sys2Proof.Machine

/-- The execution of an issued word (30_encoding.md R88, R89): the command it spells, or the refusal of an illegal word. -/
def execWord (w : Word) (s : State) : Host.Outcome State Fault Refusal :=
  match decode s.params w with
  | some i => exec i s
  | none => .next (s.raise .illegalCommand)

/-- One step: a reset, a micro-operation of a busy sequencer, a command from issue to response, or an idle turn. -/
def step (s : State) : Host.Outcome State Fault Refusal :=
  match s.turn with
  | .reset rest => .next (s.takeReset rest)
  | .sequencer => microStep s.params.samplePoint s.strobesLow
  | .issue w rest => execWord w (s.accept rest)
  | .idle => .next s.strobesLow

/-- The state whose next step issues the word of the opcode table (notes/assumptions/18.md). -/
def State.withFetchWord (s : State) (nbits w : Nat) : State := s.presenting (tableWord nbits w)

end Sys2Proof.Machine
end

