-- ==== Sys2Proof/Safety.lean ====
section
/-! DEFINITION. The terms claims use: the state that differs by a response, the phase table, the construction errors' conditions,
the caller's address contract, the pin sequence of an SRU, and the invariant of a good state. -/

namespace Sys2Proof.Safety

open Sys2Proof.Machine

/-- The state `s` after it gave the response `r` and changed nothing else (10_state.md R34, 30_encoding.md R80). -/
def answered (s : State) (r : Word) : State :=
  { s with resp := r, respValid := true, evValid := false, responses := s.responses ++ [r] }

/-- The table of 60_exceptions.md R207: the phases in which a command is performed. -/
def performedIn : Instr → Phase → Bool
  | .cfgw _ _, ph => ph = .config
  | .init, ph => ph = .config
  | .stat, _ => true
  | .sru, ph => ph = .run
  | .rd _, ph => ph = .run
  | .rdb _, ph => ph = .run
  | .ard _, ph => ph = .run
  | .wr _ _, ph => ph = .run
  | .awr _ _, ph => ph = .run
  | .selu, ph => ph = .run
  | .incr, ph => ph = .run
  | .selr, ph => ph = .run
  | .rslv _, ph => ph = .run
  | .encu _, ph => ph = .run

/-! The conditions of the construction errors (40_config.md R102). -/

/-- Condition 1: some `PPS[e] = 0`. -/
def zeroQuantum (s : State) : Prop := ∃ el ∈ s.elems, el.pps = 0#16

/-- Condition 2: `NSET = 0`. -/
def zeroSettings (s : State) : Prop := s.nset = 0#8

/-- Condition 3: `INITSET ≥ NSET`. -/
def settingTooLarge (s : State) : Prop := s.nset.toNat ≤ s.initset.toNat

/-- Condition 4: some `MUL[e] = 0`. -/
def zeroMultiplier (s : State) : Prop := ∃ el ∈ s.elems, el.mul = 0#16

/-- Condition 5: `SRC = 1` and `LINE ≥ N`. -/
def lineTooLarge (s : State) : Prop := incSrc s.inccfg = true ∧ s.params.n ≤ incLine s.inccfg

/-! The resolver's terms (42_resolver.md R140 to R142), as numbers. -/

/-- The number field of a packed Address. -/
def numberOf (a : Address) : Nat := a.toNat % 128

/-- The channel field of a packed Address. -/
def channelOf (a : Address) : Nat := a.toNat / 128 % 16

/-- The cable field of a packed Address. -/
def cableOf (a : Address) : Nat := a.toNat / 2048

/-- `r` is the result of a field whose sum is `sum` and whose maximum is `max` (42_resolver.md R141, R142). -/
def fieldIs (ovf : AddrOvf) (max sum r : Nat) : Prop :=
  (sum ≤ max → r = sum) ∧
  (max < sum → ovf = .saturate → r = max) ∧
  (max < sum → ovf = .truncate → r = sum % (max + 1))

/-- `ADDR_OK` (42_resolver.md R142): every element's address stays in range at every setting. -/
def addrOk (s : State) : Prop :=
  ∀ el ∈ s.elems,
    numberOf el.base + (s.nset.toNat - 1) * numberOf el.ofs ≤ 127 ∧
    channelOf el.base + (s.nset.toNat - 1) * channelOf el.ofs ≤ 15 ∧
    cableOf el.base + (s.nset.toNat - 1) * cableOf el.ofs ≤ 15

/-! The encoder's samples (10_state.md R31). -/

/-- The next sample of a position is `z` and leaves `s0`: the environment's next listed position, or a free value when it lists
none (notes/assumptions/5.md). -/
def takesPosition (s : State) (z : Int) (s0 : State) : Prop :=
  (∃ rest, s.posIn = z :: rest ∧ s0 = { s with posIn := rest }) ∨
  (s.posIn = [] ∧ z = Config.freePos s.draws ∧ s0 = { s with draws := s.draws + 1 })

/-! The SRU's terms (44_shiftreg.md R171, R177). -/

/-- The pairs one SRU appends to PT (44_shiftreg.md R177). -/
def sruPairs (n : Nat) : List (Pin × Bool) :=
  [(.loadN, false), (.loadN, true), (.ceN, false)] ++
    (List.replicate n [(Pin.clk, true), (Pin.clk, false)]).flatten ++ [(.ceN, true)]

/-- The levels DATA gives at its next `n` samples: the environment's list, then free values. -/
def nextData (s : State) (n : Nat) : List Bool :=
  s.dataIn.take n ++ (List.range (n - s.dataIn.length)).map fun j => Config.freeData (s.draws + j)

/-- The number whose bit `i` is the `i`-th level of the list (20_memory.md R63). -/
def bitsOf : List Bool → Nat
  | [] => 0
  | d :: ds => (if d then 1 else 0) + 2 * bitsOf ds

/-! The invariant. -/

/-- What holds in RUN (40_config.md R104). -/
structure RunOk (s : State) : Prop where
  nset_pos : s.nset ≠ 0#8
  cur_lt : s.cur.toNat < s.nset.toNat
  elems_pos : ∀ el ∈ s.elems, el.pps ≠ 0#16 ∧ el.mul ≠ 0#16
  line_lt : incSrc s.inccfg = true → incLine s.inccfg < s.params.n

/-- The pin levels before the micro-operation of the present phase is performed (44_shiftreg.md R173, R178). -/
structure PinsOk (sp : SamplePoint) (s : State) : Prop where
  loadN_eq : s.loadN = decide (s.ph.toNat ≠ 2)
  ceN_eq : s.ceN = decide (s.ph.toNat ≤ 3)
  clk_eq : s.clk = decide (4 ≤ s.ph.toNat ∧
    ((s.ph.toNat - 4) % 3 = 2 ∨ ((s.ph.toNat - 4) % 3 = 1 ∧ sp = .whileHigh)))

/-- A good state: what every state that a run from reset passes through satisfies. -/
structure Inv (s : State) : Prop where
  /-- 00_scope.md R5. -/
  params_wf : s.params.wf
  /-- One set of registers for each element `0 .. NENC-1`. -/
  elems_length : s.elems.length = s.params.nenc
  /-- BUF has `N` bits (10_state.md R23). -/
  buf_lt : s.buf.toNat < 2 ^ s.params.n
  /-- SHR has `N` bits (10_state.md R24). -/
  shr_lt : s.shr.toNat < 2 ^ s.params.n
  /-- `PREV[e]` is a signed value of `POS_W` bits (10_state.md R30). -/
  prev_range : ∀ el ∈ s.elems, -(2 ^ (s.params.posW - 1) : Int) ≤ el.prev ∧ el.prev < 2 ^ (s.params.posW - 1)
  /-- 10_state.md R27. -/
  ph_le : s.ph.toNat ≤ 4 + 3 * s.params.n
  /-- The sequencer runs only in RUN (44_shiftreg.md R171). -/
  busy_run : s.ph ≠ 0#6 → s.phase = .run
  /-- 44_shiftreg.md R178. -/
  pins : PinsOk s.params.samplePoint s
  /-- `SHR = BUF` between commands (10_state.md R24). -/
  idle_shr : s.ph = 0#6 → s.shr = s.buf
  /-- Before the first snapshot BUF holds its reset value (10_state.md R25, 20_memory.md R69). -/
  unsnapped : s.snap = false → s.buf = 0#8
  /-- ERR holds an error exactly in REJECTED (10_state.md R22). -/
  err_rejected : s.err.isSome = true ↔ s.phase = .rejected
  /-- Outside RUN no pin has moved, no event has been emitted, no snapshot has been taken (70_reset_and_hazards.md R232). -/
  quiet : s.phase ≠ .run → s.pt = [] ∧ s.ev = [] ∧ s.snap = false
  /-- 40_config.md R104. -/
  run_ok : s.phase = .run → RunOk s
  /-- Every delta is non-zero and fits DELTA_W signed bits (41_encoder.md R125, R126). -/
  deltas : ∀ x ∈ s.ev, x.delta ≠ 0 ∧ x.delta.natAbs < 2 ^ (s.params.posW + 15)
  /-- No beat is on the event port between steps (30_encoding.md R93). -/
  ev_idle : s.evValid = false

/-- PT is a whole number of SRU sequences (44_shiftreg.md R177). -/
def wholeSequences (s : State) : Prop :=
  ∃ k, s.pt = (List.replicate k (sruPairs s.params.n)).flatten

/-- The configuration registers of an element (10_state.md R42 to R45). -/
def elemConfig (el : Elem) : BitVec 16 × BitVec 16 × Address × Address := (el.pps, el.mul, el.base, el.ofs)

/-- The configuration registers (10_state.md R37). -/
def configOf (s : State) : BitVec 8 × BitVec 8 × Bool × BitVec 5 × List (BitVec 16 × BitVec 16 × Address × Address) :=
  (s.nset, s.initset, s.wrap, s.inccfg, s.elems.map elemConfig)

end Sys2Proof.Safety
end

