-- ==== Sys2Proof/Certificates/Slice0/Obligations.lean ====
section
/-! DEFINITION. The statements for the provers, from the numbered rules of the spec. -/

open Sys2Proof Sys2Proof.Machine Sys2Proof.Safety

/-! ## Encoding -/

/-- Words the spec writes out decode to the commands it says they are, and illegal ones to nothing (95_test_vectors.md 2.1 and
the examples of the command rules). -/
def Obligations.WrittenOutWordsDecode : Prop :=
  ∀ (sp : SamplePoint) (ovf : AddrOvf) (tPh : Nat),
  let p : Params := { n := 8, nenc := 1, posW := 32, samplePoint := sp, addrOvf := ovf, tPh := tPh }
  let p' : Params := { n := 4, nenc := 2, posW := 32, samplePoint := sp, addrOvf := ovf, tPh := tPh }
  decode p 0x01080004#32 = some (.cfgw (.pps 0) 4#16) ∧
  decode p 0x02000000#32 = some .init ∧
  decode p 0x03000000#32 = some .stat ∧
  decode p 0x10000000#32 = some .sru ∧
  decode p 0x11060000#32 = some (.rd 6) ∧
  decode p 0x12030000#32 = some (.rdb 3) ∧
  decode p 0x13070000#32 = some (.ard 7) ∧
  decode p 0x14010001#32 = some (.wr 1 1#16) ∧
  decode p 0x150700FF#32 = some (.awr 7 0x00FF#16) ∧
  decode p 0x20000000#32 = some .selu ∧
  decode p 0x21000000#32 = some .incr ∧
  decode p 0x22000000#32 = some .selr ∧
  decode p 0x30000000#32 = some (.rslv 0) ∧
  decode p' 0x31100000#32 = some (.encu 1) ∧
  decode p' 0x01180001#32 = some (.cfgw (.pps 1) 1#16) ∧
  decode p 0x31100000#32 = none ∧
  decode p' 0x11040000#32 = none ∧
  decode p 0x01000100#32 = none ∧
  decode p 0x00000000#32 = none ∧
  decode p 0xFFFFFFFF#32 = none

/-- 30_encoding.md R82, R83, R86: no operand bit is dropped; every command an instance has is decoded from its own word. -/
def Obligations.EncodeThenDecodeGivesTheCommand : Prop :=
  ∀ (p : Params) (i : Instr), i.wf p = true → decode p (encode i) = some i

/-- 30_encoding.md R88: a word that is a command is the one word of that command, and the command passes the value checks. -/
def Obligations.DecodeThenEncodeGivesTheWord : Prop :=
  ∀ (p : Params) (w : Word) (i : Instr), decode p w = some i → encode i = w ∧ i.wf p = true

/-- 30_encoding.md R86: the verdict is the opcode map's: a word is a command exactly when it matches a row's mask and match and
passes the row's value check; and no two rows match the same word. -/
def Obligations.DecodeFollowsTheOpcodeMap : Prop :=
  (∀ (p : Params) (w : Word) (i : Instr),
    decode p w = some i ↔ (w &&& i.opcode.mask = i.opcode.pattern ∧ operands w i.opcode = some i ∧ i.wf p = true)) ∧
  (∀ (w : Word) (a b : Opcode), w &&& a.mask = a.pattern → w &&& b.mask = b.pattern → a = b)

/-- 30_encoding.md R86, the word formulas of the command rules: the word of every command as a number. -/
def Obligations.CommandWordsAreTheFormulas : Prop :=
  (∀ v, (encode (.cfgw .nset v)).toNat = 0x01000000 + v.toNat) ∧
  (∀ v, (encode (.cfgw .initset v)).toNat = 0x01010000 + v.toNat) ∧
  (∀ v, (encode (.cfgw .wrap v)).toNat = 0x01020000 + v.toNat) ∧
  (∀ v, (encode (.cfgw .inccfg v)).toNat = 0x01030000 + v.toNat) ∧
  (∀ e v, (encode (.cfgw (.pps e) v)).toNat = 0x01080000 + e.val * 0x100000 + v.toNat) ∧
  (∀ e v, (encode (.cfgw (.mul e) v)).toNat = 0x01090000 + e.val * 0x100000 + v.toNat) ∧
  (∀ e v, (encode (.cfgw (.base e) v)).toNat = 0x010A0000 + e.val * 0x100000 + v.toNat) ∧
  (∀ e v, (encode (.cfgw (.ofs e) v)).toNat = 0x010B0000 + e.val * 0x100000 + v.toNat) ∧
  (encode .init).toNat = 0x02000000 ∧
  (encode .stat).toNat = 0x03000000 ∧
  (encode .sru).toNat = 0x10000000 ∧
  (∀ l, (encode (.rd l)).toNat = 0x11000000 + l.val * 0x10000) ∧
  (∀ l, (encode (.rdb l)).toNat = 0x12000000 + l.val * 0x10000) ∧
  (∀ l, (encode (.ard l)).toNat = 0x13000000 + l.val * 0x10000) ∧
  (∀ l v, (encode (.wr l v)).toNat = 0x14000000 + l.val * 0x10000 + v.toNat) ∧
  (∀ l v, (encode (.awr l v)).toNat = 0x15000000 + l.val * 0x10000 + v.toNat) ∧
  (encode .selu).toNat = 0x20000000 ∧
  (encode .incr).toNat = 0x21000000 ∧
  (encode .selr).toNat = 0x22000000 ∧
  (∀ e, (encode (.rslv e)).toNat = 0x30000000 + e.val * 0x100000) ∧
  (∀ e, (encode (.encu e)).toNat = 0x31000000 + e.val * 0x100000)

/-! ## The port and the step -/

/-- 30_encoding.md R80, R88: the step of a state whose port presents the word of a command, the sequencer idle, is `exec` of that
command after the word is taken and the strobes of the last step are over. -/
def Obligations.StepRunsTheDecodedCommand : Prop :=
  ∀ (s : State) (w : Word) (rest : List PortInput) (i : Instr),
    s.ph = 0#6 → s.port = .command w :: rest → decode s.params w = some i →
    step s = exec i { s with port := rest, respValid := false, evValid := false }

/-- 60_exceptions.md R206: an illegal word is answered with status 8 and changes nothing else, in every phase alike. -/
def Obligations.IllegalWordIsRefused : Prop :=
  ∀ (s : State) (w : Word) (rest : List PortInput),
    s.ph = 0#6 → s.port = .command w :: rest → decode s.params w = none →
    step s = .next (answered { s with port := rest } 0x80000000#32)

/-- 60_exceptions.md R207: the phase table. A command its table does not allow in the present phase is answered with status 9
and changes nothing else; one it allows, in a good state, completes and does not answer status 8 or 9. -/
def Obligations.PhaseTableIsObeyed : Prop :=
  ∀ (i : Instr) (s : State), i.wf s.params = true →
    (performedIn i s.phase = false → exec i s = .next (answered s 0x90000000#32)) ∧
    (performedIn i s.phase = true → Inv s → ∃ t, exec i s = .next t ∧ t.resp.toNat < 0x60000000)

/-- 30_encoding.md R80: every issued word produces exactly one response, which is RESP, and is taken from the port. -/
def Obligations.EveryCommandGivesOneResponse : Prop :=
  ∀ (s t : State) (w : Word) (rest : List PortInput),
    s.ph = 0#6 → s.port = .command w :: rest → step s = .next t →
    t.responses = s.responses ++ [t.resp] ∧ t.respValid = true ∧ t.port = rest

/-- 30_encoding.md R81: while the sequencer is busy the port is not ready, and a command that is offered is held. -/
def Obligations.BusyPortHoldsTheCommand : Prop :=
  ∀ (s : State) (w : Word) (rest : List PortInput),
    s.ph ≠ 0#6 → s.port = .command w :: rest → s.ph.toNat ≤ 4 + 3 * s.params.n →
    s.cmdReady = false ∧ ∃ t, step s = .next t ∧ t.port = s.port ∧
      (s.ph.toNat < 4 + 3 * s.params.n → t.ph = s.ph + 1#6 ∧ t.responses = s.responses) ∧
      (s.ph.toNat = 4 + 3 * s.params.n → t.ph = 0#6 ∧ t.responses = s.responses ++ [t.resp])

/-- 10_state.md R47, 70_reset_and_hazards.md R230, R231: `rst` gives every element its reset value, whatever was in progress. -/
def Obligations.ResetGivesTheResetValues : Prop :=
  ∀ (s : State) (rest : List PortInput), s.port = .reset :: rest →
    ∃ t, step s = .next t ∧
      t.phase = .config ∧ t.err = none ∧ t.buf = 0#8 ∧ t.shr = 0#8 ∧ t.snap = false ∧
      t.loadN = true ∧ t.ceN = true ∧ t.clk = false ∧ t.ph = 0#6 ∧ t.cur = 0#8 ∧ t.plv = true ∧
      t.nset = 0#8 ∧ t.initset = 0#8 ∧ t.wrap = false ∧ t.inccfg = 0#5 ∧
      t.elems = List.replicate s.params.nenc { prev := 0, pps := 0#16, mul := 0#16, base := 0#15, ofs := 0#15 } ∧
      t.resp = 0#32 ∧ t.pt = [] ∧ t.ev = [] ∧
      t.cmdReady = true ∧ t.respValid = false ∧ t.evValid = false ∧ t.params = s.params

/-- 70_reset_and_hazards.md R232, which the spec derives from 10_state.md R47 and 40_config.md R102: after reset no pin has moved and no event has been emitted, INIT fails with InvalidQuantization,
STAT answers 0, a CFGW is performed, and every other command is refused with WrongPhase. -/
def Obligations.AfterResetOnlyConstruction : Prop :=
  ∀ p : Params, p.wf →
    (State.resetOf p).pt = [] ∧ (State.resetOf p).ev = [] ∧
    (State.resetOf p).loadN = true ∧ (State.resetOf p).ceN = true ∧ (State.resetOf p).clk = false ∧
    exec .init (State.resetOf p) =
      .next (answered { State.resetOf p with phase := .rejected, err := some .invalidQuantization } 0x10000000#32) ∧
    exec .stat (State.resetOf p) = .next (answered (State.resetOf p) 0#32) ∧
    (∀ reg v, Instr.wf p (.cfgw reg v) = true →
      ∃ t, exec (.cfgw reg v) (State.resetOf p) = .next t ∧ t.resp = 0#32 ∧ t.phase = .config) ∧
    (∀ i, i.wf p = true → performedIn i .config = false →
      exec i (State.resetOf p) = .next (answered (State.resetOf p) 0x90000000#32))

/-! ## Construction -/

/-- 40_config.md R101: CFGW writes one register and nothing else but the response; outside CONFIG it is refused with WrongPhase. The
last clause is the model's choice (notes/assumptions/11.md): the spec checks the register and the value at decode, and `exec`,
handed a CFGW no word spells, answers as the word's refusal would. -/
def Obligations.CfgwWritesOneRegister : Prop :=
  ∀ s : State,
    (s.phase = .config →
      (∀ v : Half, v.toNat < 256 → exec (.cfgw .nset v) s = .next (answered { s with nset := v.setWidth 8 } 0#32)) ∧
      (∀ v : Half, v.toNat < 256 → exec (.cfgw .initset v) s = .next (answered { s with initset := v.setWidth 8 } 0#32)) ∧
      (∀ v : Half, v.toNat < 2 → exec (.cfgw .wrap v) s = .next (answered { s with wrap := decide (v = 1#16) } 0#32)) ∧
      (∀ v : Half, v.toNat < 32 → exec (.cfgw .inccfg v) s = .next (answered { s with inccfg := v.setWidth 5 } 0#32)) ∧
      (∀ (e : Elt) (el : Elem), e.val < s.params.nenc → s.elems[e.val]? = some el →
        (∀ v : Half, exec (.cfgw (.pps e) v) s =
          .next (answered { s with elems := s.elems.set e.val { el with pps := v } } 0#32)) ∧
        (∀ v : Half, exec (.cfgw (.mul e) v) s =
          .next (answered { s with elems := s.elems.set e.val { el with mul := v } } 0#32)) ∧
        (∀ v : Half, v.toNat < 32768 → exec (.cfgw (.base e) v) s =
          .next (answered { s with elems := s.elems.set e.val { el with base := v.setWidth 15 } } 0#32)) ∧
        (∀ v : Half, v.toNat < 32768 → exec (.cfgw (.ofs e) v) s =
          .next (answered { s with elems := s.elems.set e.val { el with ofs := v.setWidth 15 } } 0#32)))) ∧
    (∀ reg v, Instr.wf s.params (.cfgw reg v) = true → s.phase ≠ .config →
      exec (.cfgw reg v) s = .next (answered s 0x90000000#32)) ∧
    (∀ reg v, Instr.wf s.params (.cfgw reg v) = false → exec (.cfgw reg v) s = .next (answered s 0x80000000#32))

/-- 40_config.md R102, R103: INIT enters RUN and loads CUR, PLV and every PREV when no condition of R102 holds, and else enters
REJECTED with the code of the first condition that holds; outside CONFIG it is refused. -/
def Obligations.InitConstructsOrRejects : Prop :=
  ∀ s : State,
    (s.phase = .config → ¬ zeroQuantum s → ¬ zeroSettings s → ¬ settingTooLarge s → ¬ zeroMultiplier s → ¬ lineTooLarge s →
      exec .init s = .next (answered
        { s with phase := .run, cur := s.initset, plv := !s.inccfg.getLsbD 0,
                 elems := s.elems.map fun el => { el with prev := 0 } } 0#32)) ∧
    (s.phase = .config → zeroQuantum s →
      exec .init s = .next (answered { s with phase := .rejected, err := some .invalidQuantization } 0x10000000#32)) ∧
    (s.phase = .config → ¬ zeroQuantum s → zeroSettings s →
      exec .init s = .next (answered { s with phase := .rejected, err := some .invalidSettingCount } 0x20000000#32)) ∧
    (s.phase = .config → ¬ zeroQuantum s → ¬ zeroSettings s → settingTooLarge s →
      exec .init s = .next (answered { s with phase := .rejected, err := some .outOfRangeSetting } 0x30000000#32)) ∧
    (s.phase = .config → ¬ zeroQuantum s → ¬ zeroSettings s → ¬ settingTooLarge s → zeroMultiplier s →
      exec .init s = .next (answered { s with phase := .rejected, err := some .invalidMultiplier } 0x40000000#32)) ∧
    (s.phase = .config → ¬ zeroQuantum s → ¬ zeroSettings s → ¬ settingTooLarge s → ¬ zeroMultiplier s → lineTooLarge s →
      exec .init s = .next (answered { s with phase := .rejected, err := some .invalidIncrementLine } 0x50000000#32)) ∧
    (s.phase ≠ .config → exec .init s = .next (answered s 0x90000000#32))

/-- 40_config.md R105: STAT answers PHASE in bits 1:0, ERR in bits 5:2 and SNAP in bit 6, in every phase, and writes RESP only. -/
def Obligations.StatAnswersTheFlags : Prop :=
  ∀ s : State, exec .stat s = .next (answered s (BitVec.ofNat 32
    ((match s.phase with | .config => 0 | .run => 1 | .rejected => 2) +
     4 * (match s.err with
        | none => 0
        | some .invalidQuantization => 1
        | some .invalidSettingCount => 2
        | some .outOfRangeSetting => 3
        | some .invalidMultiplier => 4
        | some .invalidIncrementLine => 5) +
     64 * (if s.snap then 1 else 0))))

/-- 60_exceptions.md R213, R210: RUN and REJECTED are left only by reset, ERR is never cleared by a command, and CONFIG is left only
by INIT. -/
def Obligations.OnlyInitAndResetChangeThePhase : Prop :=
  ∀ s t : State, step s = .next t → s.port.head? ≠ some .reset →
    (s.phase = .run → t.phase = .run ∧ t.err = s.err) ∧
    (s.phase = .rejected → t.phase = .rejected ∧ t.err = s.err) ∧
    (s.phase = .config → t.phase ≠ .config →
      ∃ w rest, s.port = .command w :: rest ∧ decode s.params w = some .init)

/-- 10_state.md R37: after INIT no step but reset changes a configuration register. -/
def Obligations.ConfigurationIsImmutableAfterInit : Prop :=
  ∀ s t : State, s.phase ≠ .config → step s = .next t → s.port.head? ≠ some .reset → configOf t = configOf s

/-! ## The encoder -/

/-- 41_encoder.md R120: ENCU. The sample is the environment's next position, or a free value when the environment lists none. -/
def Obligations.EncuTranslates : Prop :=
  ∀ (e : Elt) (s s0 : State) (el : Elem) (z : Int),
    e.val < s.params.nenc → s.phase = .run → s.elems[e.val]? = some el → el.pps ≠ 0#16 →
    takesPosition s z s0 →
    let m : Nat := 2 ^ s.params.posW
    let c := z.bmod m
    let d := (c - el.prev).bmod m
    let q := d.tdiv el.pps.toNat
    (q = 0 → exec (.encu e) s = .next (answered s0 0#32)) ∧
    (q ≠ 0 → exec (.encu e) s = .next (answered
      { s0 with
        ev := s.ev ++ [{ delta := q * el.mul.toNat, addr := resolve s.params.addrOvf s.cur el.base el.ofs }]
        elems := s.elems.set e.val { el with prev := (el.prev + q * el.pps.toNat).bmod m } } 1#32))

/-- 41_encoder.md R123: a movement of less than one step emits nothing and leaves PREV as it was. -/
def Obligations.SubStepMovementIsSilent : Prop :=
  ∀ (e : Elt) (s s0 : State) (el : Elem) (z : Int),
    e.val < s.params.nenc → s.phase = .run → s.elems[e.val]? = some el → takesPosition s z s0 →
    ((z.bmod (2 ^ s.params.posW) - el.prev).bmod (2 ^ s.params.posW)).natAbs < el.pps.toNat →
    exec (.encu e) s = .next (answered s0 0#32)

/-- 41_encoder.md R124: right after an ENCU the position it sampled is less than one step away from PREV, whether or not it
emitted. -/
def Obligations.RemainderStaysBelowOneStep : Prop :=
  ∀ (e : Elt) (s s0 t : State) (el : Elem) (z : Int),
    e.val < s.params.nenc → s.phase = .run → s.elems[e.val]? = some el → el.pps ≠ 0#16 → takesPosition s z s0 →
    2 ≤ s.params.posW → exec (.encu e) s = .next t →
    ∃ el', t.elems[e.val]? = some el' ∧
      ((z.bmod (2 ^ s.params.posW) - el'.prev).bmod (2 ^ s.params.posW)).natAbs < el.pps.toNat

/-- 41_encoder.md R125, R126: an ENCU appends at most one event; its delta is a non-zero multiple of MUL with the sign of the
movement, and it fits DELTA_W signed bits. -/
def Obligations.DeltaIsNonzeroExactAndSigned : Prop :=
  ∀ (e : Elt) (s s0 t : State) (el : Elem) (z : Int),
    e.val < s.params.nenc → s.phase = .run → s.elems[e.val]? = some el → el.pps ≠ 0#16 → el.mul ≠ 0#16 →
    2 ≤ s.params.posW → takesPosition s z s0 → exec (.encu e) s = .next t →
    t.ev = s.ev ∨ ∃ x : Event, t.ev = s.ev ++ [x] ∧ x.delta ≠ 0 ∧ (el.mul.toNat : Int) ∣ x.delta ∧
      x.delta.sign = ((z.bmod (2 ^ s.params.posW) - el.prev).bmod (2 ^ s.params.posW)).sign ∧
      -(2 ^ (s.params.deltaW - 1) : Int) ≤ x.delta ∧ x.delta < 2 ^ (s.params.deltaW - 1)

/-- 41_encoder.md R127: a run of ENCU commands over a non-decreasing position that starts at 0 or above never emits a negative
delta (and completes). -/
def Obligations.RisingPositionNeverGoesBack : Prop :=
  ∀ (e : Elt) (s : State) (el : Elem) (zs : List Int),
    Inv s → s.phase = .run → s.ph = 0#6 → e.val < s.params.nenc → s.elems[e.val]? = some el → el.prev = 0 →
    s.port = List.replicate zs.length (.command (encode (.encu e))) → s.posIn = zs →
    zs.Pairwise (· ≤ ·) → (∀ z ∈ zs, 0 ≤ z ∧ z < 2 ^ (s.params.posW - 1)) →
    ∃ t news, Host.Core.run core zs.length s = .next t ∧ t.ev = s.ev ++ news ∧ ∀ x ∈ news, 0 < x.delta

/-- 41_encoder.md R127, the other direction: a non-increasing position that starts at 0 or below never emits a positive delta. -/
def Obligations.FallingPositionNeverGoesForward : Prop :=
  ∀ (e : Elt) (s : State) (el : Elem) (zs : List Int),
    Inv s → s.phase = .run → s.ph = 0#6 → e.val < s.params.nenc → s.elems[e.val]? = some el → el.prev = 0 →
    s.port = List.replicate zs.length (.command (encode (.encu e))) → s.posIn = zs →
    zs.Pairwise (· ≥ ·) → (∀ z ∈ zs, -(2 ^ (s.params.posW - 1) : Int) ≤ z ∧ z ≤ 0) →
    ∃ t news, Host.Core.run core zs.length s = .next t ∧ t.ev = s.ev ++ news ∧ ∀ x ∈ news, x.delta < 0

/-- 41_encoder.md R124, R127, one ENCU: when the counter has not wrapped between PREV and the sample, PREV moves toward the sample
and never passes it, and the event, if any, has the sign of the movement. -/
def Obligations.PrevNeverPassesTheSample : Prop :=
  ∀ (e : Elt) (s s0 : State) (el : Elem) (z : Int),
    e.val < s.params.nenc → s.phase = .run → s.elems[e.val]? = some el → el.pps ≠ 0#16 → el.mul ≠ 0#16 →
    2 ≤ s.params.posW → -(2 ^ (s.params.posW - 1) : Int) ≤ el.prev → el.prev < 2 ^ (s.params.posW - 1) →
    takesPosition s z s0 →
    let c := z.bmod (2 ^ s.params.posW)
    (el.prev ≤ c → c - el.prev < 2 ^ (s.params.posW - 1) →
      ∃ t el', exec (.encu e) s = .next t ∧ t.elems[e.val]? = some el' ∧ el.prev ≤ el'.prev ∧ el'.prev ≤ c ∧
        (t.ev = s.ev ∨ ∃ x : Event, t.ev = s.ev ++ [x] ∧ 0 < x.delta)) ∧
    (c ≤ el.prev → el.prev - c ≤ 2 ^ (s.params.posW - 1) →
      ∃ t el', exec (.encu e) s = .next t ∧ t.elems[e.val]? = some el' ∧ c ≤ el'.prev ∧ el'.prev ≤ el.prev ∧
        (t.ev = s.ev ∨ ∃ x : Event, t.ev = s.ev ++ [x] ∧ x.delta < 0))

/-! ## The resolver -/

/-- 42_resolver.md R141, R142, R143: RSLV answers the address whose fields are the field sums, with ADDR_OVF beyond a field's range,
and writes RESP only. -/
def Obligations.RslvAnswersTheFieldSums : Prop :=
  ∀ (e : Elt) (s : State) (el : Elem),
    e.val < s.params.nenc → s.phase = .run → s.elems[e.val]? = some el →
    ∃ a : Address, exec (.rslv e) s = .next (answered s (a.setWidth 32)) ∧
      fieldIs s.params.addrOvf 127 (numberOf el.base + s.cur.toNat * numberOf el.ofs) (numberOf a) ∧
      fieldIs s.params.addrOvf 15 (channelOf el.base + s.cur.toNat * channelOf el.ofs) (channelOf a) ∧
      fieldIs s.params.addrOvf 15 (cableOf el.base + s.cur.toNat * cableOf el.ofs) (cableOf a)

/-- 42_resolver.md R142: under the caller's contract ADDR_OK, in RUN, the effective address is plain addition, for both values of
ADDR_OVF. -/
def Obligations.ResolveIsPlainAdditionUnderAddrOk : Prop :=
  ∀ (ovf : AddrOvf) (s : State) (el : Elem), Inv s → s.phase = .run → addrOk s → el ∈ s.elems →
    (resolve ovf s.cur el.base el.ofs).toNat =
      (numberOf el.base + s.cur.toNat * numberOf el.ofs) +
      128 * (channelOf el.base + s.cur.toNat * channelOf el.ofs) +
      2048 * (cableOf el.base + s.cur.toNat * cableOf el.ofs)

/-- 42_resolver.md R143, corner cases: at setting 0, or with a zero offset, RSLV answers the base address. -/
def Obligations.UnmovedElementAnswersItsBase : Prop :=
  ∀ (e : Elt) (s : State) (el : Elem),
    e.val < s.params.nenc → s.phase = .run → s.elems[e.val]? = some el → (s.cur = 0#8 ∨ el.ofs = 0#15) →
    exec (.rslv e) s = .next (answered s (el.base.setWidth 32))

/-! ## The selector -/

/-- 43_selector.md R151, R152, R153: SELU. The level is the environment's next `inc_raw`, a free value when the environment lists
none, or the buffered line. The transition is R155's for CUR < NSET; that an edge in a state with CUR at or above NSET, which
40_config.md R104 rules out in RUN, gives CUR + 1 on eight bits is the model's choice (notes/assumptions/12.md). -/
def Obligations.SeluUpdatesTheSelector : Prop :=
  ∀ (s s0 : State) (lvl : Bool), s.phase = .run →
    ((incSrc s.inccfg = false ∧ ∃ rest, s.incIn = lvl :: rest ∧ s0 = { s with incIn := rest }) ∨
      (incSrc s.inccfg = false ∧ s.incIn = [] ∧ lvl = Config.freeInc s.draws ∧ s0 = { s with draws := s.draws + 1 }) ∨
      (incSrc s.inccfg = true ∧ incLine s.inccfg < s.params.n ∧ lvl = s.buf.getLsbD (incLine s.inccfg) ∧ s0 = s)) →
    let act := s.inccfg.getLsbD 0
    (lvl = act → s.plv ≠ act → ∀ c : BitVec 8,
      (s.cur.toNat + 1 ≠ s.nset.toNat → c = s.cur + 1#8) →
      (s.cur.toNat + 1 = s.nset.toNat → s.wrap = true → c = 0#8) →
      (s.cur.toNat + 1 = s.nset.toNat → s.wrap = false → c = s.cur) →
      exec .selu s = .next (answered { s0 with plv := lvl, cur := c } (BitVec.ofNat 32 (256 * c.toNat + 1)))) ∧
    (¬ (lvl = act ∧ s.plv ≠ act) →
      exec .selu s = .next (answered { s0 with plv := lvl } (BitVec.ofNat 32 (256 * s.cur.toNat))))

/-- 43_selector.md R155, R156, R157: INCR steps, wraps or clamps, and answers the setting after. -/
def Obligations.IncrStepsWrapsOrClamps : Prop :=
  ∀ s : State,
    (s.phase = .run → s.cur.toNat + 1 < s.nset.toNat →
      exec .incr s = .next (answered { s with cur := s.cur + 1#8 } (BitVec.ofNat 32 (s.cur.toNat + 1)))) ∧
    (s.phase = .run → s.cur.toNat + 1 = s.nset.toNat → s.wrap = true →
      exec .incr s = .next (answered { s with cur := 0#8 } 0#32)) ∧
    (s.phase = .run → s.cur.toNat + 1 = s.nset.toNat → s.wrap = false →
      exec .incr s = .next (answered s (BitVec.ofNat 32 s.cur.toNat))) ∧
    (s.phase ≠ .run → exec .incr s = .next (answered s 0x90000000#32))

/-- 43_selector.md R158: SELR answers the setting and writes RESP only. -/
def Obligations.SelrAnswersTheSetting : Prop :=
  ∀ s : State,
    (s.phase = .run → exec .selr s = .next (answered s (BitVec.ofNat 32 s.cur.toNat))) ∧
    (s.phase ≠ .run → exec .selr s = .next (answered s 0x90000000#32))

/-- 43_selector.md R160: an Increment applies the transition once; any other answer, a reserved one too, leaves CUR unchanged. -/
def Obligations.OnlyIncrementMovesTheSetting : Prop :=
  ∀ (s : State) (d : Det),
    (d ≠ .increment → s.applyDet d = s) ∧
    (d = .increment → s.cur.toNat < s.nset.toNat →
      s.applyDet d = { s with cur := (s.applyDet d).cur } ∧ (s.applyDet d).cur.toNat < s.nset.toNat ∧
      ((s.applyDet d).cur.toNat = s.cur.toNat + 1 ∨
        (s.cur.toNat + 1 = s.nset.toNat ∧ (s.applyDet d).cur = if s.wrap then 0#8 else s.cur)))

/-- 43_selector.md R154: (a) while the level stays active no further Increment is reported; (c) a level active at the first SELU
after INIT is an Increment; (e) two successive SELU never both report one. The answer is bits 1:0 of the response. -/
def Obligations.OnePressIsOneIncrement : Prop :=
  (∀ s t : State, s.phase = .run → s.plv = s.inccfg.getLsbD 0 → exec .selu s = .next t →
    t.resp.extractLsb' 0 2 = 0#2 ∧ t.cur = s.cur) ∧
  (∀ (s t : State) (rest : List Bool), s.phase = .config → exec .init s = .next t → t.phase = .run →
    incSrc s.inccfg = false → s.incIn = s.inccfg.getLsbD 0 :: rest →
    ∃ u, exec .selu t = .next u ∧ u.resp.extractLsb' 0 2 = 1#2) ∧
  (∀ s t u : State, s.phase = .run → exec .selu s = .next t → exec .selu t = .next u →
    t.resp.extractLsb' 0 2 = 1#2 → u.resp.extractLsb' 0 2 = 0#2 ∧ u.cur = t.cur)

/-! ## The shift-register reader -/

/-- 44_shiftreg.md R171, R177, 20_memory.md R63: SRU takes N samples, the i-th into bit i, commits them, leaves the pins idle, and
appends exactly the pairs of R177 to PT. -/
def Obligations.SruTakesASnapshot : Prop :=
  ∀ s : State, s.phase = .run → s.params.n ≤ 8 → s.shr.toNat < 2 ^ s.params.n → 1 ≤ s.params.n →
    let ds := nextData s s.params.n
    exec .sru s = .next (answered
      { s with
        buf := BitVec.ofNat 8 (bitsOf ds), shr := BitVec.ofNat 8 (bitsOf ds), snap := true
        loadN := true, ceN := true, clk := false, ph := 0#6
        pt := s.pt ++ sruPairs s.params.n
        dataIn := s.dataIn.drop s.params.n, draws := s.draws + (s.params.n - s.dataIn.length) }
      (BitVec.ofNat 32 (bitsOf ds)))

/-- 44_shiftreg.md R181, R173: the `4 + 3N` micro-operations of the phase table, from the issue of SRU with no command between
them, compose to exactly the SRU of R171, for both values of SAMPLE_POINT. -/
def Obligations.SmallStepsComposeToSru : Prop :=
  ∀ (sp : SamplePoint) (s : State), s.phase = .run → s.params.n ≤ 8 →
    microSteps sp (4 + 3 * s.params.n) s.startSequencer = exec .sru s

/-- 44_shiftreg.md R173: the rows of the phase table, one micro-operation for each value of PH. -/
def Obligations.PhaseTableRows : Prop :=
  ∀ (sp : SamplePoint) (s : State), s.params.n ≤ 8 →
    (s.ph = 1#6 → microStep sp s = .next { s with loadN := false, pt := s.pt ++ [(.loadN, false)], ph := 2#6 }) ∧
    (s.ph = 2#6 → microStep sp s = .next { s with loadN := true, pt := s.pt ++ [(.loadN, true)], ph := 3#6 }) ∧
    (s.ph = 3#6 → microStep sp s = .next { s with ceN := false, pt := s.pt ++ [(.ceN, false)], ph := 4#6 }) ∧
    (∀ i, i < s.params.n →
      ((s.ph.toNat = 4 + 3 * i ∧ sp = .whileHigh) ∨ (s.ph.toNat = 5 + 3 * i ∧ sp = .beforeRise) →
        microStep sp s = .next { s with clk := true, pt := s.pt ++ [(.clk, true)], ph := s.ph + 1#6 }) ∧
      ((s.ph.toNat = 4 + 3 * i ∧ sp = .beforeRise) ∨ (s.ph.toNat = 5 + 3 * i ∧ sp = .whileHigh) →
        ∀ d rest, s.dataIn = d :: rest →
        ∃ t, microStep sp s = .next t ∧ t = { s with shr := t.shr, dataIn := rest, ph := s.ph + 1#6 } ∧
          ∀ j, j < 8 → t.shr.getLsbD j = if j = i then d else s.shr.getLsbD j) ∧
      (s.ph.toNat = 6 + 3 * i →
        microStep sp s = .next { s with clk := false, pt := s.pt ++ [(.clk, false)], ph := s.ph + 1#6 })) ∧
    (s.ph.toNat = 4 + 3 * s.params.n → microStep sp s = .next (answered
      { s with buf := s.shr, snap := true, ceN := true, pt := s.pt ++ [(.ceN, true)], ph := 0#6 } (s.shr.setWidth 32)))

/-- 44_shiftreg.md R183, R184, R185: RD and RDB answer BUF[line] and write RESP only; outside RUN they are refused with WrongPhase
(60_exceptions.md R207). The last clause is the model's choice (notes/assumptions/11.md): the spec checks the line at decode, and
`exec`, handed a line no word spells on the instance, answers as the word's refusal would. -/
def Obligations.ReadsAnswerTheBufferedLine : Prop :=
  ∀ (line : Line) (s : State),
    (line.val < s.params.n → s.phase = .run →
      exec (.rd line) s = .next (answered s (if s.buf.getLsbD line.val then 1#32 else 0#32)) ∧
      exec (.rdb line) s = .next (answered s (if s.buf.getLsbD line.val then 1#32 else 0#32))) ∧
    (line.val < s.params.n → s.phase ≠ .run →
      exec (.rd line) s = .next (answered s 0x90000000#32) ∧ exec (.rdb line) s = .next (answered s 0x90000000#32)) ∧
    (s.params.n ≤ line.val →
      exec (.rd line) s = .next (answered s 0x80000000#32) ∧ exec (.rdb line) s = .next (answered s 0x80000000#32))

/-- 44_shiftreg.md R186, R187, R188, R189: the unsupported operations answer 0 with status OK for every line and value, in RUN, and
write RESP only. -/
def Obligations.UnsupportedOperationsAnswerZero : Prop :=
  ∀ (line : Line) (v : Half) (s : State),
    (s.phase = .run →
      exec (.ard line) s = .next (answered s 0#32) ∧ exec (.wr line v) s = .next (answered s 0#32) ∧
      exec (.awr line v) s = .next (answered s 0#32)) ∧
    (s.phase ≠ .run →
      exec (.ard line) s = .next (answered s 0x90000000#32) ∧ exec (.wr line v) s = .next (answered s 0x90000000#32) ∧
      exec (.awr line v) s = .next (answered s 0x90000000#32))

/-- 44_shiftreg.md R177: PT stays a whole number of SRU sequences between commands. -/
def Obligations.PinTraceIsWholeSequences : Prop :=
  ∀ s t : State, s.ph = 0#6 → wholeSequences s → step s = .next t → t.ph = 0#6 ∧ wholeSequences t

/-- 20_memory.md R68: between two SRU commands the snapshot does not change, whatever else is issued. -/
def Obligations.SnapshotStandsBetweenSrus : Prop :=
  ∀ (k : Nat) (s t : State), s.ph = 0#6 →
    (∀ x ∈ s.port, x ≠ .reset ∧ x ≠ .command 0x10000000#32) →
    Host.Core.run core k s = .next t → t.buf = s.buf ∧ t.pt = s.pt ∧ t.snap = s.snap

/-! ## The whole machine -/

/-- The frame of every command (10_state.md R23 to R37, the "State written" lines of the command rules): what each leaves
unchanged when it completes. -/
def Obligations.CommandsLeaveTheRestUnchanged : Prop :=
  ∀ (i : Instr) (s t : State), exec i s = .next t →
    t.params = s.params ∧ t.port = s.port ∧
    (i ≠ .sru → t.buf = s.buf ∧ t.shr = s.shr ∧ t.snap = s.snap ∧ t.loadN = s.loadN ∧ t.ceN = s.ceN ∧ t.clk = s.clk ∧
      t.ph = s.ph ∧ t.pt = s.pt ∧ t.dataIn = s.dataIn) ∧
    ((∀ e, i ≠ .encu e) → t.ev = s.ev ∧ t.posIn = s.posIn) ∧
    (i ≠ .selu → t.incIn = s.incIn) ∧
    (i ≠ .selu → i ≠ .incr → i ≠ .init → t.cur = s.cur) ∧
    (i ≠ .selu → i ≠ .init → t.plv = s.plv) ∧
    (i ≠ .init → t.phase = s.phase ∧ t.err = s.err) ∧
    ((∀ reg v, i ≠ .cfgw reg v) → configOf t = configOf s) ∧
    ((∀ e, i ≠ .encu e) → i ≠ .init → t.elems.map Elem.prev = s.elems.map Elem.prev) ∧
    (∀ e, i = .encu e → ∀ f : Nat, f ≠ e.val → t.elems[f]? = s.elems[f]?)

/-- The invariant holds at reset, for every instance (10_state.md R47). -/
def Obligations.ResetIsAGoodState : Prop := ∀ p : Params, p.wf → Inv (State.resetOf p)

/-- 40_config.md R104, 44_shiftreg.md R178 and the other parts of `Inv`: every step from a good state completes, with no fault and
no refusal, in a good state. -/
def Obligations.GoodStatesStepToGoodStates : Prop := ∀ s : State, Inv s → ∃ t, step s = .next t ∧ Inv t

/-- The model's faults (notes/assumptions/12.md): each stands for a state 40_config.md R104 rules out; a command stops nowhere
else, and never has no meaning. -/
def Obligations.CommandsStopOnlyInImpossibleStates : Prop :=
  (∀ (i : Instr) (s : State) (r : Fault), exec i s = .fault r → ¬ Inv s) ∧
  (∀ (i : Instr) (s : State) (r : Refusal), exec i s ≠ .refused r) ∧
  (∀ (e : Elt) (s : State) (el : Elem), e.val < s.params.nenc → s.phase = .run → s.elems[e.val]? = some el →
    el.pps = 0#16 → exec (.encu e) s = .fault .divisionByZero) ∧
  (∀ s : State, s.phase = .run → lineTooLarge s → exec .selu s = .fault .lineOutOfRange) ∧
  (∀ (e : Elt) (s : State), e.val < s.params.nenc → s.phase = .run → s.elems.length ≤ e.val →
    exec (.encu e) s = .fault .noSuchElement ∧ exec (.rslv e) s = .fault .noSuchElement) ∧
  (∀ (e : Elt) (v : Half) (s : State), e.val < s.params.nenc → s.phase = .config → s.elems.length ≤ e.val →
    exec (.cfgw (.pps e) v) s = .fault .noSuchElement ∧ exec (.cfgw (.mul e) v) s = .fault .noSuchElement ∧
    (v.toNat < 32768 →
      exec (.cfgw (.base e) v) s = .fault .noSuchElement ∧ exec (.cfgw (.ofs e) v) s = .fault .noSuchElement))

/-- The model's choice for a command handed to `exec` with an operand no word can carry on the instance: it is refused as its word
would be, in every phase (notes/assumptions/11.md, after 30_encoding.md R88 steps 3 and 4). -/
def Obligations.OperandsOutOfRangeAreRefused : Prop :=
  ∀ (i : Instr) (s : State), i.wf s.params = false → exec i s = .next (answered s 0x80000000#32)

/-- 10_state.md R20, R48: no step changes the instance's parameters. -/
def Obligations.ParametersAreFixed : Prop := ∀ s t : State, step s = .next t → t.params = s.params
end

