-- ==== Sys2Proof/Laws/Decode.lean ====
section
/-! SUPPORT. The fields of a command word put together by the encoder, and what an accepted word says of its fields. -/

namespace Sys2Proof

/-- The four fields of a command word as one number (30_encoding.md R82). -/
theorem fields_toNat (a : BitVec 8) (b c : BitVec 4) (d : Half) :
    (a ++ b ++ c ++ d : Word).toNat = a.toNat * 2 ^ 24 + b.toNat * 2 ^ 20 + c.toNat * 2 ^ 16 + d.toNat := by
  have hb := b.isLt
  have hc := c.isLt
  have hd := d.isLt
  have e1 : (a ++ b).toNat = a.toNat * 2 ^ 4 + b.toNat := by
    rw [BitVec.toNat_append, Nat.shiftLeft_eq, Nat.mul_comm, ← Nat.two_pow_add_eq_or_of_lt hb]
  have e2 : (a ++ b ++ c).toNat = (a ++ b).toNat * 2 ^ 4 + c.toNat := by
    rw [BitVec.toNat_append, Nat.shiftLeft_eq, Nat.mul_comm, ← Nat.two_pow_add_eq_or_of_lt hc]
  have e3 : (a ++ b ++ c ++ d : Word).toNat = (a ++ b ++ c).toNat * 2 ^ 16 + d.toNat := by
    rw [BitVec.toNat_append, Nat.shiftLeft_eq, Nat.mul_comm, ← Nat.two_pow_add_eq_or_of_lt hd]
  rw [e3, e2, e1]
  ring

theorem encode_toNat (i : Instr) :
    (encode i).toNat =
      i.opcode.code.toNat * 2 ^ 24 + i.selHigh.toNat * 2 ^ 20 + i.selLow.toNat * 2 ^ 16 + i.imm.toNat :=
  fields_toNat _ _ _ _

theorem opField_toNat (w : Word) : (opField w).toNat = w.toNat / 2 ^ 24 := by
  have := w.isLt
  simp only [opField, BitVec.extractLsb'_toNat, Nat.shiftRight_eq_div_pow]
  omega

theorem eltField_val (w : Word) : (eltField w).val = w.toNat / 2 ^ 20 % 16 := by
  have : (eltField w).val = (w.extractLsb' 20 4).toNat := rfl
  rw [this, BitVec.extractLsb'_toNat, Nat.shiftRight_eq_div_pow]

theorem regField_toNat (w : Word) : (regField w).toNat = w.toNat / 2 ^ 16 % 16 := by
  rw [regField, BitVec.extractLsb'_toNat, Nat.shiftRight_eq_div_pow]

theorem lineField_val (w : Word) : (lineField w).val = w.toNat / 2 ^ 16 % 8 := by
  have : (lineField w).val = (w.extractLsb' 16 3).toNat := rfl
  rw [this, BitVec.extractLsb'_toNat, Nat.shiftRight_eq_div_pow]

theorem immField_toNat (w : Word) : (immField w).toNat = w.toNat % 2 ^ 16 := by
  rw [immField, BitVec.extractLsb'_toNat, Nat.shiftRight_eq_div_pow]
  simp

/-! The reserved bits, as numbers (30_encoding.md R82). -/

theorem reservedZero_z (w : Word) : Format.z.reservedZero w = true ↔ w.toNat % 2 ^ 24 = 0 := by
  simp only [Format.reservedZero, beq_iff_eq, ← BitVec.toNat_inj, BitVec.extractLsb'_toNat, Nat.shiftRight_eq_div_pow]
  simp

theorem reservedZero_l (w : Word) :
    Format.l.reservedZero w = true ↔ w.toNat / 2 ^ 19 % 2 ^ 5 = 0 ∧ w.toNat % 2 ^ 16 = 0 := by
  simp only [Format.reservedZero, Bool.and_eq_true, beq_iff_eq, ← BitVec.toNat_inj, BitVec.extractLsb'_toNat,
    Nat.shiftRight_eq_div_pow]
  simp

theorem reservedZero_lv (w : Word) : Format.lv.reservedZero w = true ↔ w.toNat / 2 ^ 19 % 2 ^ 5 = 0 := by
  simp only [Format.reservedZero, beq_iff_eq, ← BitVec.toNat_inj, BitVec.extractLsb'_toNat, Nat.shiftRight_eq_div_pow]
  simp

theorem reservedZero_e (w : Word) : Format.e.reservedZero w = true ↔ w.toNat % 2 ^ 20 = 0 := by
  simp only [Format.reservedZero, beq_iff_eq, ← BitVec.toNat_inj, BitVec.extractLsb'_toNat, Nat.shiftRight_eq_div_pow]
  simp

/-- An opcode is found under its own number (30_encoding.md R86). -/
theorem ofCode_code (op : Opcode) : Opcode.ofCode op.code = some op := by cases op <;> rfl

theorem code_of_ofCode {c : BitVec 8} {op : Opcode} (h : Opcode.ofCode c = some op) : op.code = c := by
  have := List.find?_some h
  simpa using this

/-- What an accepted word satisfies, step by step (30_encoding.md R88). -/
theorem decode_eq_some {p : Params} {w : Word} {i : Instr} :
    decode p w = some i ↔
      ∃ op, Opcode.ofCode (opField w) = some op ∧ op.format.reservedZero w = true ∧ operands w op = some i ∧
        i.wf p = true := by
  unfold decode
  split
  · next h => simp [h]
  · next op h =>
    simp only [h, Option.some.injEq, exists_eq_left']
    split
    · next hr =>
      simp only [hr, true_and]
      split
      · next ho => simp [ho]
      · next j hj =>
        by_cases hw : j.wf p = true
        · simp only [hw, if_true, Option.some.injEq, hj]
          constructor
          · rintro rfl; exact ⟨rfl, hw⟩
          · exact And.left
        · simp only [hw, hj, Option.some.injEq]
          constructor
          · simp
          · rintro ⟨rfl, hw'⟩; exact absurd hw' hw
    · next hr => simp [hr]

end Sys2Proof
end

