-- ==== Sys2Proof/Laws/State.lean ====
section
/-! SUPPORT. One lemma for each field of the state under each of its primitive updates. -/

namespace Sys2Proof.Machine

/-! `State.respond`. -/

@[simp] theorem State.respond_phase (s : State) (status : BitVec 4) (value : Half) :
    (s.respond status value).phase = s.phase := rfl
@[simp] theorem State.respond_err (s : State) (status : BitVec 4) (value : Half) :
    (s.respond status value).err = s.err := rfl
@[simp] theorem State.respond_buf (s : State) (status : BitVec 4) (value : Half) :
    (s.respond status value).buf = s.buf := rfl
@[simp] theorem State.respond_shr (s : State) (status : BitVec 4) (value : Half) :
    (s.respond status value).shr = s.shr := rfl
@[simp] theorem State.respond_snap (s : State) (status : BitVec 4) (value : Half) :
    (s.respond status value).snap = s.snap := rfl
@[simp] theorem State.respond_loadN (s : State) (status : BitVec 4) (value : Half) :
    (s.respond status value).loadN = s.loadN := rfl
@[simp] theorem State.respond_ceN (s : State) (status : BitVec 4) (value : Half) :
    (s.respond status value).ceN = s.ceN := rfl
@[simp] theorem State.respond_clk (s : State) (status : BitVec 4) (value : Half) :
    (s.respond status value).clk = s.clk := rfl
@[simp] theorem State.respond_ph (s : State) (status : BitVec 4) (value : Half) : (s.respond status value).ph = s.ph := rfl
@[simp] theorem State.respond_cur (s : State) (status : BitVec 4) (value : Half) :
    (s.respond status value).cur = s.cur := rfl
@[simp] theorem State.respond_plv (s : State) (status : BitVec 4) (value : Half) :
    (s.respond status value).plv = s.plv := rfl
@[simp] theorem State.respond_nset (s : State) (status : BitVec 4) (value : Half) :
    (s.respond status value).nset = s.nset := rfl
@[simp] theorem State.respond_initset (s : State) (status : BitVec 4) (value : Half) :
    (s.respond status value).initset = s.initset := rfl
@[simp] theorem State.respond_wrap (s : State) (status : BitVec 4) (value : Half) :
    (s.respond status value).wrap = s.wrap := rfl
@[simp] theorem State.respond_inccfg (s : State) (status : BitVec 4) (value : Half) :
    (s.respond status value).inccfg = s.inccfg := rfl
@[simp] theorem State.respond_elems (s : State) (status : BitVec 4) (value : Half) :
    (s.respond status value).elems = s.elems := rfl
@[simp] theorem State.respond_resp (s : State) (status : BitVec 4) (value : Half) :
    (s.respond status value).resp = responseWord status value := rfl
@[simp] theorem State.respond_respValid (s : State) (status : BitVec 4) (value : Half) :
    (s.respond status value).respValid = true := rfl
@[simp] theorem State.respond_evValid (s : State) (status : BitVec 4) (value : Half) :
    (s.respond status value).evValid = false := rfl
@[simp] theorem State.respond_pt (s : State) (status : BitVec 4) (value : Half) : (s.respond status value).pt = s.pt := rfl
@[simp] theorem State.respond_ev (s : State) (status : BitVec 4) (value : Half) : (s.respond status value).ev = s.ev := rfl
@[simp] theorem State.respond_params (s : State) (status : BitVec 4) (value : Half) :
    (s.respond status value).params = s.params := rfl
@[simp] theorem State.respond_responses (s : State) (status : BitVec 4) (value : Half) :
    (s.respond status value).responses = s.responses ++ [responseWord status value] := rfl
@[simp] theorem State.respond_port (s : State) (status : BitVec 4) (value : Half) :
    (s.respond status value).port = s.port := rfl
@[simp] theorem State.respond_dataIn (s : State) (status : BitVec 4) (value : Half) :
    (s.respond status value).dataIn = s.dataIn := rfl
@[simp] theorem State.respond_incIn (s : State) (status : BitVec 4) (value : Half) :
    (s.respond status value).incIn = s.incIn := rfl
@[simp] theorem State.respond_posIn (s : State) (status : BitVec 4) (value : Half) :
    (s.respond status value).posIn = s.posIn := rfl
@[simp] theorem State.respond_draws (s : State) (status : BitVec 4) (value : Half) :
    (s.respond status value).draws = s.draws := rfl

/-! `State.drive`. -/

@[simp] theorem State.drive_phase (s : State) (p : Pin) (l : Bool) : (s.drive p l).phase = s.phase := by cases p <;> rfl
@[simp] theorem State.drive_err (s : State) (p : Pin) (l : Bool) : (s.drive p l).err = s.err := by cases p <;> rfl
@[simp] theorem State.drive_buf (s : State) (p : Pin) (l : Bool) : (s.drive p l).buf = s.buf := by cases p <;> rfl
@[simp] theorem State.drive_shr (s : State) (p : Pin) (l : Bool) : (s.drive p l).shr = s.shr := by cases p <;> rfl
@[simp] theorem State.drive_snap (s : State) (p : Pin) (l : Bool) : (s.drive p l).snap = s.snap := by cases p <;> rfl
@[simp] theorem State.drive_loadN (s : State) (p : Pin) (l : Bool) :
    (s.drive p l).loadN = if p = .loadN then l else s.loadN := by cases p <;> rfl
@[simp] theorem State.drive_ceN (s : State) (p : Pin) (l : Bool) :
    (s.drive p l).ceN = if p = .ceN then l else s.ceN := by cases p <;> rfl
@[simp] theorem State.drive_clk (s : State) (p : Pin) (l : Bool) :
    (s.drive p l).clk = if p = .clk then l else s.clk := by cases p <;> rfl
@[simp] theorem State.drive_ph (s : State) (p : Pin) (l : Bool) : (s.drive p l).ph = s.ph := by cases p <;> rfl
@[simp] theorem State.drive_cur (s : State) (p : Pin) (l : Bool) : (s.drive p l).cur = s.cur := by cases p <;> rfl
@[simp] theorem State.drive_plv (s : State) (p : Pin) (l : Bool) : (s.drive p l).plv = s.plv := by cases p <;> rfl
@[simp] theorem State.drive_nset (s : State) (p : Pin) (l : Bool) : (s.drive p l).nset = s.nset := by cases p <;> rfl
@[simp] theorem State.drive_initset (s : State) (p : Pin) (l : Bool) :
    (s.drive p l).initset = s.initset := by cases p <;> rfl
@[simp] theorem State.drive_wrap (s : State) (p : Pin) (l : Bool) : (s.drive p l).wrap = s.wrap := by cases p <;> rfl
@[simp] theorem State.drive_inccfg (s : State) (p : Pin) (l : Bool) : (s.drive p l).inccfg = s.inccfg := by cases p <;> rfl
@[simp] theorem State.drive_elems (s : State) (p : Pin) (l : Bool) : (s.drive p l).elems = s.elems := by cases p <;> rfl
@[simp] theorem State.drive_resp (s : State) (p : Pin) (l : Bool) : (s.drive p l).resp = s.resp := by cases p <;> rfl
@[simp] theorem State.drive_respValid (s : State) (p : Pin) (l : Bool) :
    (s.drive p l).respValid = s.respValid := by cases p <;> rfl
@[simp] theorem State.drive_evValid (s : State) (p : Pin) (l : Bool) :
    (s.drive p l).evValid = s.evValid := by cases p <;> rfl
@[simp] theorem State.drive_pt (s : State) (p : Pin) (l : Bool) : (s.drive p l).pt = s.pt ++ [(p, l)] := by cases p <;> rfl
@[simp] theorem State.drive_ev (s : State) (p : Pin) (l : Bool) : (s.drive p l).ev = s.ev := by cases p <;> rfl
@[simp] theorem State.drive_params (s : State) (p : Pin) (l : Bool) : (s.drive p l).params = s.params := by cases p <;> rfl
@[simp] theorem State.drive_responses (s : State) (p : Pin) (l : Bool) :
    (s.drive p l).responses = s.responses := by cases p <;> rfl
@[simp] theorem State.drive_port (s : State) (p : Pin) (l : Bool) : (s.drive p l).port = s.port := by cases p <;> rfl
@[simp] theorem State.drive_dataIn (s : State) (p : Pin) (l : Bool) : (s.drive p l).dataIn = s.dataIn := by cases p <;> rfl
@[simp] theorem State.drive_incIn (s : State) (p : Pin) (l : Bool) : (s.drive p l).incIn = s.incIn := by cases p <;> rfl
@[simp] theorem State.drive_posIn (s : State) (p : Pin) (l : Bool) : (s.drive p l).posIn = s.posIn := by cases p <;> rfl
@[simp] theorem State.drive_draws (s : State) (p : Pin) (l : Bool) : (s.drive p l).draws = s.draws := by cases p <;> rfl

/-! `State.dataTaken`. -/

@[simp] theorem State.dataTaken_phase (s : State) : (s.dataTaken).phase = s.phase := by
  unfold State.dataTaken
  split <;> rfl
@[simp] theorem State.dataTaken_err (s : State) : (s.dataTaken).err = s.err := by
  unfold State.dataTaken
  split <;> rfl
@[simp] theorem State.dataTaken_buf (s : State) : (s.dataTaken).buf = s.buf := by
  unfold State.dataTaken
  split <;> rfl
@[simp] theorem State.dataTaken_shr (s : State) : (s.dataTaken).shr = s.shr := by
  unfold State.dataTaken
  split <;> rfl
@[simp] theorem State.dataTaken_snap (s : State) : (s.dataTaken).snap = s.snap := by
  unfold State.dataTaken
  split <;> rfl
@[simp] theorem State.dataTaken_loadN (s : State) : (s.dataTaken).loadN = s.loadN := by
  unfold State.dataTaken
  split <;> rfl
@[simp] theorem State.dataTaken_ceN (s : State) : (s.dataTaken).ceN = s.ceN := by
  unfold State.dataTaken
  split <;> rfl
@[simp] theorem State.dataTaken_clk (s : State) : (s.dataTaken).clk = s.clk := by
  unfold State.dataTaken
  split <;> rfl
@[simp] theorem State.dataTaken_ph (s : State) : (s.dataTaken).ph = s.ph := by
  unfold State.dataTaken
  split <;> rfl
@[simp] theorem State.dataTaken_cur (s : State) : (s.dataTaken).cur = s.cur := by
  unfold State.dataTaken
  split <;> rfl
@[simp] theorem State.dataTaken_plv (s : State) : (s.dataTaken).plv = s.plv := by
  unfold State.dataTaken
  split <;> rfl
@[simp] theorem State.dataTaken_nset (s : State) : (s.dataTaken).nset = s.nset := by
  unfold State.dataTaken
  split <;> rfl
@[simp] theorem State.dataTaken_initset (s : State) : (s.dataTaken).initset = s.initset := by
  unfold State.dataTaken
  split <;> rfl
@[simp] theorem State.dataTaken_wrap (s : State) : (s.dataTaken).wrap = s.wrap := by
  unfold State.dataTaken
  split <;> rfl
@[simp] theorem State.dataTaken_inccfg (s : State) : (s.dataTaken).inccfg = s.inccfg := by
  unfold State.dataTaken
  split <;> rfl
@[simp] theorem State.dataTaken_elems (s : State) : (s.dataTaken).elems = s.elems := by
  unfold State.dataTaken
  split <;> rfl
@[simp] theorem State.dataTaken_resp (s : State) : (s.dataTaken).resp = s.resp := by
  unfold State.dataTaken
  split <;> rfl
@[simp] theorem State.dataTaken_respValid (s : State) : (s.dataTaken).respValid = s.respValid := by
  unfold State.dataTaken
  split <;> rfl
@[simp] theorem State.dataTaken_evValid (s : State) : (s.dataTaken).evValid = s.evValid := by
  unfold State.dataTaken
  split <;> rfl
@[simp] theorem State.dataTaken_pt (s : State) : (s.dataTaken).pt = s.pt := by
  unfold State.dataTaken
  split <;> rfl
@[simp] theorem State.dataTaken_ev (s : State) : (s.dataTaken).ev = s.ev := by
  unfold State.dataTaken
  split <;> rfl
@[simp] theorem State.dataTaken_params (s : State) : (s.dataTaken).params = s.params := by
  unfold State.dataTaken
  split <;> rfl
@[simp] theorem State.dataTaken_responses (s : State) : (s.dataTaken).responses = s.responses := by
  unfold State.dataTaken
  split <;> rfl
@[simp] theorem State.dataTaken_port (s : State) : (s.dataTaken).port = s.port := by
  unfold State.dataTaken
  split <;> rfl
@[simp] theorem State.dataTaken_dataIn (s : State) : (s.dataTaken).dataIn = s.dataIn.drop 1 := by
  obtain h | ⟨d, ds, h⟩ : s.dataIn = [] ∨ ∃ d ds, s.dataIn = d :: ds := by cases s.dataIn <;> simp
  all_goals simp [State.dataTaken, h]
@[simp] theorem State.dataTaken_incIn (s : State) : (s.dataTaken).incIn = s.incIn := by
  unfold State.dataTaken
  split <;> rfl
@[simp] theorem State.dataTaken_posIn (s : State) : (s.dataTaken).posIn = s.posIn := by
  unfold State.dataTaken
  split <;> rfl
@[simp] theorem State.dataTaken_draws (s : State) : (s.dataTaken).draws = s.draws + (1 - s.dataIn.length) := by
  obtain h | ⟨d, ds, h⟩ : s.dataIn = [] ∨ ∃ d ds, s.dataIn = d :: ds := by cases s.dataIn <;> simp
  all_goals simp [State.dataTaken, h]

/-! `State.incTaken`. -/

@[simp] theorem State.incTaken_phase (s : State) : (s.incTaken).phase = s.phase := by
  unfold State.incTaken
  split <;> rfl
@[simp] theorem State.incTaken_err (s : State) : (s.incTaken).err = s.err := by
  unfold State.incTaken
  split <;> rfl
@[simp] theorem State.incTaken_buf (s : State) : (s.incTaken).buf = s.buf := by
  unfold State.incTaken
  split <;> rfl
@[simp] theorem State.incTaken_shr (s : State) : (s.incTaken).shr = s.shr := by
  unfold State.incTaken
  split <;> rfl
@[simp] theorem State.incTaken_snap (s : State) : (s.incTaken).snap = s.snap := by
  unfold State.incTaken
  split <;> rfl
@[simp] theorem State.incTaken_loadN (s : State) : (s.incTaken).loadN = s.loadN := by
  unfold State.incTaken
  split <;> rfl
@[simp] theorem State.incTaken_ceN (s : State) : (s.incTaken).ceN = s.ceN := by
  unfold State.incTaken
  split <;> rfl
@[simp] theorem State.incTaken_clk (s : State) : (s.incTaken).clk = s.clk := by
  unfold State.incTaken
  split <;> rfl
@[simp] theorem State.incTaken_ph (s : State) : (s.incTaken).ph = s.ph := by
  unfold State.incTaken
  split <;> rfl
@[simp] theorem State.incTaken_cur (s : State) : (s.incTaken).cur = s.cur := by
  unfold State.incTaken
  split <;> rfl
@[simp] theorem State.incTaken_plv (s : State) : (s.incTaken).plv = s.plv := by
  unfold State.incTaken
  split <;> rfl
@[simp] theorem State.incTaken_nset (s : State) : (s.incTaken).nset = s.nset := by
  unfold State.incTaken
  split <;> rfl
@[simp] theorem State.incTaken_initset (s : State) : (s.incTaken).initset = s.initset := by
  unfold State.incTaken
  split <;> rfl
@[simp] theorem State.incTaken_wrap (s : State) : (s.incTaken).wrap = s.wrap := by
  unfold State.incTaken
  split <;> rfl
@[simp] theorem State.incTaken_inccfg (s : State) : (s.incTaken).inccfg = s.inccfg := by
  unfold State.incTaken
  split <;> rfl
@[simp] theorem State.incTaken_elems (s : State) : (s.incTaken).elems = s.elems := by
  unfold State.incTaken
  split <;> rfl
@[simp] theorem State.incTaken_resp (s : State) : (s.incTaken).resp = s.resp := by
  unfold State.incTaken
  split <;> rfl
@[simp] theorem State.incTaken_respValid (s : State) : (s.incTaken).respValid = s.respValid := by
  unfold State.incTaken
  split <;> rfl
@[simp] theorem State.incTaken_evValid (s : State) : (s.incTaken).evValid = s.evValid := by
  unfold State.incTaken
  split <;> rfl
@[simp] theorem State.incTaken_pt (s : State) : (s.incTaken).pt = s.pt := by
  unfold State.incTaken
  split <;> rfl
@[simp] theorem State.incTaken_ev (s : State) : (s.incTaken).ev = s.ev := by
  unfold State.incTaken
  split <;> rfl
@[simp] theorem State.incTaken_params (s : State) : (s.incTaken).params = s.params := by
  unfold State.incTaken
  split <;> rfl
@[simp] theorem State.incTaken_responses (s : State) : (s.incTaken).responses = s.responses := by
  unfold State.incTaken
  split <;> rfl
@[simp] theorem State.incTaken_port (s : State) : (s.incTaken).port = s.port := by
  unfold State.incTaken
  split <;> rfl
@[simp] theorem State.incTaken_dataIn (s : State) : (s.incTaken).dataIn = s.dataIn := by
  unfold State.incTaken
  split <;> rfl
@[simp] theorem State.incTaken_incIn (s : State) : (s.incTaken).incIn = s.incIn.drop 1 := by
  obtain h | ⟨d, ds, h⟩ : s.incIn = [] ∨ ∃ d ds, s.incIn = d :: ds := by cases s.incIn <;> simp
  all_goals simp [State.incTaken, h]
@[simp] theorem State.incTaken_posIn (s : State) : (s.incTaken).posIn = s.posIn := by
  unfold State.incTaken
  split <;> rfl
@[simp] theorem State.incTaken_draws (s : State) : (s.incTaken).draws = s.draws + (1 - s.incIn.length) := by
  obtain h | ⟨d, ds, h⟩ : s.incIn = [] ∨ ∃ d ds, s.incIn = d :: ds := by cases s.incIn <;> simp
  all_goals simp [State.incTaken, h]

/-! `State.posTaken`. -/

@[simp] theorem State.posTaken_phase (s : State) : (s.posTaken).phase = s.phase := by
  unfold State.posTaken
  split <;> rfl
@[simp] theorem State.posTaken_err (s : State) : (s.posTaken).err = s.err := by
  unfold State.posTaken
  split <;> rfl
@[simp] theorem State.posTaken_buf (s : State) : (s.posTaken).buf = s.buf := by
  unfold State.posTaken
  split <;> rfl
@[simp] theorem State.posTaken_shr (s : State) : (s.posTaken).shr = s.shr := by
  unfold State.posTaken
  split <;> rfl
@[simp] theorem State.posTaken_snap (s : State) : (s.posTaken).snap = s.snap := by
  unfold State.posTaken
  split <;> rfl
@[simp] theorem State.posTaken_loadN (s : State) : (s.posTaken).loadN = s.loadN := by
  unfold State.posTaken
  split <;> rfl
@[simp] theorem State.posTaken_ceN (s : State) : (s.posTaken).ceN = s.ceN := by
  unfold State.posTaken
  split <;> rfl
@[simp] theorem State.posTaken_clk (s : State) : (s.posTaken).clk = s.clk := by
  unfold State.posTaken
  split <;> rfl
@[simp] theorem State.posTaken_ph (s : State) : (s.posTaken).ph = s.ph := by
  unfold State.posTaken
  split <;> rfl
@[simp] theorem State.posTaken_cur (s : State) : (s.posTaken).cur = s.cur := by
  unfold State.posTaken
  split <;> rfl
@[simp] theorem State.posTaken_plv (s : State) : (s.posTaken).plv = s.plv := by
  unfold State.posTaken
  split <;> rfl
@[simp] theorem State.posTaken_nset (s : State) : (s.posTaken).nset = s.nset := by
  unfold State.posTaken
  split <;> rfl
@[simp] theorem State.posTaken_initset (s : State) : (s.posTaken).initset = s.initset := by
  unfold State.posTaken
  split <;> rfl
@[simp] theorem State.posTaken_wrap (s : State) : (s.posTaken).wrap = s.wrap := by
  unfold State.posTaken
  split <;> rfl
@[simp] theorem State.posTaken_inccfg (s : State) : (s.posTaken).inccfg = s.inccfg := by
  unfold State.posTaken
  split <;> rfl
@[simp] theorem State.posTaken_elems (s : State) : (s.posTaken).elems = s.elems := by
  unfold State.posTaken
  split <;> rfl
@[simp] theorem State.posTaken_resp (s : State) : (s.posTaken).resp = s.resp := by
  unfold State.posTaken
  split <;> rfl
@[simp] theorem State.posTaken_respValid (s : State) : (s.posTaken).respValid = s.respValid := by
  unfold State.posTaken
  split <;> rfl
@[simp] theorem State.posTaken_evValid (s : State) : (s.posTaken).evValid = s.evValid := by
  unfold State.posTaken
  split <;> rfl
@[simp] theorem State.posTaken_pt (s : State) : (s.posTaken).pt = s.pt := by
  unfold State.posTaken
  split <;> rfl
@[simp] theorem State.posTaken_ev (s : State) : (s.posTaken).ev = s.ev := by
  unfold State.posTaken
  split <;> rfl
@[simp] theorem State.posTaken_params (s : State) : (s.posTaken).params = s.params := by
  unfold State.posTaken
  split <;> rfl
@[simp] theorem State.posTaken_responses (s : State) : (s.posTaken).responses = s.responses := by
  unfold State.posTaken
  split <;> rfl
@[simp] theorem State.posTaken_port (s : State) : (s.posTaken).port = s.port := by
  unfold State.posTaken
  split <;> rfl
@[simp] theorem State.posTaken_dataIn (s : State) : (s.posTaken).dataIn = s.dataIn := by
  unfold State.posTaken
  split <;> rfl
@[simp] theorem State.posTaken_incIn (s : State) : (s.posTaken).incIn = s.incIn := by
  unfold State.posTaken
  split <;> rfl
@[simp] theorem State.posTaken_posIn (s : State) : (s.posTaken).posIn = s.posIn.drop 1 := by
  obtain h | ⟨d, ds, h⟩ : s.posIn = [] ∨ ∃ d ds, s.posIn = d :: ds := by cases s.posIn <;> simp
  all_goals simp [State.posTaken, h]
@[simp] theorem State.posTaken_draws (s : State) : (s.posTaken).draws = s.draws + (1 - s.posIn.length) := by
  obtain h | ⟨d, ds, h⟩ : s.posIn = [] ∨ ∃ d ds, s.posIn = d :: ds := by cases s.posIn <;> simp
  all_goals simp [State.posTaken, h]

/-! `State.emit`. -/

@[simp] theorem State.emit_phase (s : State) (delta : Int) (addr : Address) : (s.emit delta addr).phase = s.phase := rfl
@[simp] theorem State.emit_err (s : State) (delta : Int) (addr : Address) : (s.emit delta addr).err = s.err := rfl
@[simp] theorem State.emit_buf (s : State) (delta : Int) (addr : Address) : (s.emit delta addr).buf = s.buf := rfl
@[simp] theorem State.emit_shr (s : State) (delta : Int) (addr : Address) : (s.emit delta addr).shr = s.shr := rfl
@[simp] theorem State.emit_snap (s : State) (delta : Int) (addr : Address) : (s.emit delta addr).snap = s.snap := rfl
@[simp] theorem State.emit_loadN (s : State) (delta : Int) (addr : Address) : (s.emit delta addr).loadN = s.loadN := rfl
@[simp] theorem State.emit_ceN (s : State) (delta : Int) (addr : Address) : (s.emit delta addr).ceN = s.ceN := rfl
@[simp] theorem State.emit_clk (s : State) (delta : Int) (addr : Address) : (s.emit delta addr).clk = s.clk := rfl
@[simp] theorem State.emit_ph (s : State) (delta : Int) (addr : Address) : (s.emit delta addr).ph = s.ph := rfl
@[simp] theorem State.emit_cur (s : State) (delta : Int) (addr : Address) : (s.emit delta addr).cur = s.cur := rfl
@[simp] theorem State.emit_plv (s : State) (delta : Int) (addr : Address) : (s.emit delta addr).plv = s.plv := rfl
@[simp] theorem State.emit_nset (s : State) (delta : Int) (addr : Address) : (s.emit delta addr).nset = s.nset := rfl
@[simp] theorem State.emit_initset (s : State) (delta : Int) (addr : Address) :
    (s.emit delta addr).initset = s.initset := rfl
@[simp] theorem State.emit_wrap (s : State) (delta : Int) (addr : Address) : (s.emit delta addr).wrap = s.wrap := rfl
@[simp] theorem State.emit_inccfg (s : State) (delta : Int) (addr : Address) : (s.emit delta addr).inccfg = s.inccfg := rfl
@[simp] theorem State.emit_elems (s : State) (delta : Int) (addr : Address) : (s.emit delta addr).elems = s.elems := rfl
@[simp] theorem State.emit_resp (s : State) (delta : Int) (addr : Address) : (s.emit delta addr).resp = s.resp := rfl
@[simp] theorem State.emit_respValid (s : State) (delta : Int) (addr : Address) :
    (s.emit delta addr).respValid = s.respValid := rfl
@[simp] theorem State.emit_evValid (s : State) (delta : Int) (addr : Address) : (s.emit delta addr).evValid = true := rfl
@[simp] theorem State.emit_pt (s : State) (delta : Int) (addr : Address) : (s.emit delta addr).pt = s.pt := rfl
@[simp] theorem State.emit_ev (s : State) (delta : Int) (addr : Address) :
    (s.emit delta addr).ev = s.ev ++ [{ delta := delta, addr := addr }] := rfl
@[simp] theorem State.emit_params (s : State) (delta : Int) (addr : Address) : (s.emit delta addr).params = s.params := rfl
@[simp] theorem State.emit_responses (s : State) (delta : Int) (addr : Address) :
    (s.emit delta addr).responses = s.responses := rfl
@[simp] theorem State.emit_port (s : State) (delta : Int) (addr : Address) : (s.emit delta addr).port = s.port := rfl
@[simp] theorem State.emit_dataIn (s : State) (delta : Int) (addr : Address) : (s.emit delta addr).dataIn = s.dataIn := rfl
@[simp] theorem State.emit_incIn (s : State) (delta : Int) (addr : Address) : (s.emit delta addr).incIn = s.incIn := rfl
@[simp] theorem State.emit_posIn (s : State) (delta : Int) (addr : Address) : (s.emit delta addr).posIn = s.posIn := rfl
@[simp] theorem State.emit_draws (s : State) (delta : Int) (addr : Address) : (s.emit delta addr).draws = s.draws := rfl

/-! `State.setElem`. -/

@[simp] theorem State.setElem_phase (s : State) (e : Nat) (el : Elem) : (s.setElem e el).phase = s.phase := rfl
@[simp] theorem State.setElem_err (s : State) (e : Nat) (el : Elem) : (s.setElem e el).err = s.err := rfl
@[simp] theorem State.setElem_buf (s : State) (e : Nat) (el : Elem) : (s.setElem e el).buf = s.buf := rfl
@[simp] theorem State.setElem_shr (s : State) (e : Nat) (el : Elem) : (s.setElem e el).shr = s.shr := rfl
@[simp] theorem State.setElem_snap (s : State) (e : Nat) (el : Elem) : (s.setElem e el).snap = s.snap := rfl
@[simp] theorem State.setElem_loadN (s : State) (e : Nat) (el : Elem) : (s.setElem e el).loadN = s.loadN := rfl
@[simp] theorem State.setElem_ceN (s : State) (e : Nat) (el : Elem) : (s.setElem e el).ceN = s.ceN := rfl
@[simp] theorem State.setElem_clk (s : State) (e : Nat) (el : Elem) : (s.setElem e el).clk = s.clk := rfl
@[simp] theorem State.setElem_ph (s : State) (e : Nat) (el : Elem) : (s.setElem e el).ph = s.ph := rfl
@[simp] theorem State.setElem_cur (s : State) (e : Nat) (el : Elem) : (s.setElem e el).cur = s.cur := rfl
@[simp] theorem State.setElem_plv (s : State) (e : Nat) (el : Elem) : (s.setElem e el).plv = s.plv := rfl
@[simp] theorem State.setElem_nset (s : State) (e : Nat) (el : Elem) : (s.setElem e el).nset = s.nset := rfl
@[simp] theorem State.setElem_initset (s : State) (e : Nat) (el : Elem) : (s.setElem e el).initset = s.initset := rfl
@[simp] theorem State.setElem_wrap (s : State) (e : Nat) (el : Elem) : (s.setElem e el).wrap = s.wrap := rfl
@[simp] theorem State.setElem_inccfg (s : State) (e : Nat) (el : Elem) : (s.setElem e el).inccfg = s.inccfg := rfl
@[simp] theorem State.setElem_elems (s : State) (e : Nat) (el : Elem) : (s.setElem e el).elems = s.elems.set e el := rfl
@[simp] theorem State.setElem_resp (s : State) (e : Nat) (el : Elem) : (s.setElem e el).resp = s.resp := rfl
@[simp] theorem State.setElem_respValid (s : State) (e : Nat) (el : Elem) : (s.setElem e el).respValid = s.respValid := rfl
@[simp] theorem State.setElem_evValid (s : State) (e : Nat) (el : Elem) : (s.setElem e el).evValid = s.evValid := rfl
@[simp] theorem State.setElem_pt (s : State) (e : Nat) (el : Elem) : (s.setElem e el).pt = s.pt := rfl
@[simp] theorem State.setElem_ev (s : State) (e : Nat) (el : Elem) : (s.setElem e el).ev = s.ev := rfl
@[simp] theorem State.setElem_params (s : State) (e : Nat) (el : Elem) : (s.setElem e el).params = s.params := rfl
@[simp] theorem State.setElem_responses (s : State) (e : Nat) (el : Elem) : (s.setElem e el).responses = s.responses := rfl
@[simp] theorem State.setElem_port (s : State) (e : Nat) (el : Elem) : (s.setElem e el).port = s.port := rfl
@[simp] theorem State.setElem_dataIn (s : State) (e : Nat) (el : Elem) : (s.setElem e el).dataIn = s.dataIn := rfl
@[simp] theorem State.setElem_incIn (s : State) (e : Nat) (el : Elem) : (s.setElem e el).incIn = s.incIn := rfl
@[simp] theorem State.setElem_posIn (s : State) (e : Nat) (el : Elem) : (s.setElem e el).posIn = s.posIn := rfl
@[simp] theorem State.setElem_draws (s : State) (e : Nat) (el : Elem) : (s.setElem e el).draws = s.draws := rfl

/-! `State.increment`. -/

@[simp] theorem State.increment_phase (s : State) : (s.increment).phase = s.phase := rfl
@[simp] theorem State.increment_err (s : State) : (s.increment).err = s.err := rfl
@[simp] theorem State.increment_buf (s : State) : (s.increment).buf = s.buf := rfl
@[simp] theorem State.increment_shr (s : State) : (s.increment).shr = s.shr := rfl
@[simp] theorem State.increment_snap (s : State) : (s.increment).snap = s.snap := rfl
@[simp] theorem State.increment_loadN (s : State) : (s.increment).loadN = s.loadN := rfl
@[simp] theorem State.increment_ceN (s : State) : (s.increment).ceN = s.ceN := rfl
@[simp] theorem State.increment_clk (s : State) : (s.increment).clk = s.clk := rfl
@[simp] theorem State.increment_ph (s : State) : (s.increment).ph = s.ph := rfl
@[simp] theorem State.increment_cur (s : State) : (s.increment).cur = nextSetting s.nset s.wrap s.cur := rfl
@[simp] theorem State.increment_plv (s : State) : (s.increment).plv = s.plv := rfl
@[simp] theorem State.increment_nset (s : State) : (s.increment).nset = s.nset := rfl
@[simp] theorem State.increment_initset (s : State) : (s.increment).initset = s.initset := rfl
@[simp] theorem State.increment_wrap (s : State) : (s.increment).wrap = s.wrap := rfl
@[simp] theorem State.increment_inccfg (s : State) : (s.increment).inccfg = s.inccfg := rfl
@[simp] theorem State.increment_elems (s : State) : (s.increment).elems = s.elems := rfl
@[simp] theorem State.increment_resp (s : State) : (s.increment).resp = s.resp := rfl
@[simp] theorem State.increment_respValid (s : State) : (s.increment).respValid = s.respValid := rfl
@[simp] theorem State.increment_evValid (s : State) : (s.increment).evValid = s.evValid := rfl
@[simp] theorem State.increment_pt (s : State) : (s.increment).pt = s.pt := rfl
@[simp] theorem State.increment_ev (s : State) : (s.increment).ev = s.ev := rfl
@[simp] theorem State.increment_params (s : State) : (s.increment).params = s.params := rfl
@[simp] theorem State.increment_responses (s : State) : (s.increment).responses = s.responses := rfl
@[simp] theorem State.increment_port (s : State) : (s.increment).port = s.port := rfl
@[simp] theorem State.increment_dataIn (s : State) : (s.increment).dataIn = s.dataIn := rfl
@[simp] theorem State.increment_incIn (s : State) : (s.increment).incIn = s.incIn := rfl
@[simp] theorem State.increment_posIn (s : State) : (s.increment).posIn = s.posIn := rfl
@[simp] theorem State.increment_draws (s : State) : (s.increment).draws = s.draws := rfl

/-! `State.setPlv`. -/

@[simp] theorem State.setPlv_phase (s : State) (lvl : Bool) : (s.setPlv lvl).phase = s.phase := rfl
@[simp] theorem State.setPlv_err (s : State) (lvl : Bool) : (s.setPlv lvl).err = s.err := rfl
@[simp] theorem State.setPlv_buf (s : State) (lvl : Bool) : (s.setPlv lvl).buf = s.buf := rfl
@[simp] theorem State.setPlv_shr (s : State) (lvl : Bool) : (s.setPlv lvl).shr = s.shr := rfl
@[simp] theorem State.setPlv_snap (s : State) (lvl : Bool) : (s.setPlv lvl).snap = s.snap := rfl
@[simp] theorem State.setPlv_loadN (s : State) (lvl : Bool) : (s.setPlv lvl).loadN = s.loadN := rfl
@[simp] theorem State.setPlv_ceN (s : State) (lvl : Bool) : (s.setPlv lvl).ceN = s.ceN := rfl
@[simp] theorem State.setPlv_clk (s : State) (lvl : Bool) : (s.setPlv lvl).clk = s.clk := rfl
@[simp] theorem State.setPlv_ph (s : State) (lvl : Bool) : (s.setPlv lvl).ph = s.ph := rfl
@[simp] theorem State.setPlv_cur (s : State) (lvl : Bool) : (s.setPlv lvl).cur = s.cur := rfl
@[simp] theorem State.setPlv_plv (s : State) (lvl : Bool) : (s.setPlv lvl).plv = lvl := rfl
@[simp] theorem State.setPlv_nset (s : State) (lvl : Bool) : (s.setPlv lvl).nset = s.nset := rfl
@[simp] theorem State.setPlv_initset (s : State) (lvl : Bool) : (s.setPlv lvl).initset = s.initset := rfl
@[simp] theorem State.setPlv_wrap (s : State) (lvl : Bool) : (s.setPlv lvl).wrap = s.wrap := rfl
@[simp] theorem State.setPlv_inccfg (s : State) (lvl : Bool) : (s.setPlv lvl).inccfg = s.inccfg := rfl
@[simp] theorem State.setPlv_elems (s : State) (lvl : Bool) : (s.setPlv lvl).elems = s.elems := rfl
@[simp] theorem State.setPlv_resp (s : State) (lvl : Bool) : (s.setPlv lvl).resp = s.resp := rfl
@[simp] theorem State.setPlv_respValid (s : State) (lvl : Bool) : (s.setPlv lvl).respValid = s.respValid := rfl
@[simp] theorem State.setPlv_evValid (s : State) (lvl : Bool) : (s.setPlv lvl).evValid = s.evValid := rfl
@[simp] theorem State.setPlv_pt (s : State) (lvl : Bool) : (s.setPlv lvl).pt = s.pt := rfl
@[simp] theorem State.setPlv_ev (s : State) (lvl : Bool) : (s.setPlv lvl).ev = s.ev := rfl
@[simp] theorem State.setPlv_params (s : State) (lvl : Bool) : (s.setPlv lvl).params = s.params := rfl
@[simp] theorem State.setPlv_responses (s : State) (lvl : Bool) : (s.setPlv lvl).responses = s.responses := rfl
@[simp] theorem State.setPlv_port (s : State) (lvl : Bool) : (s.setPlv lvl).port = s.port := rfl
@[simp] theorem State.setPlv_dataIn (s : State) (lvl : Bool) : (s.setPlv lvl).dataIn = s.dataIn := rfl
@[simp] theorem State.setPlv_incIn (s : State) (lvl : Bool) : (s.setPlv lvl).incIn = s.incIn := rfl
@[simp] theorem State.setPlv_posIn (s : State) (lvl : Bool) : (s.setPlv lvl).posIn = s.posIn := rfl
@[simp] theorem State.setPlv_draws (s : State) (lvl : Bool) : (s.setPlv lvl).draws = s.draws := rfl

/-! `State.commit`. -/

@[simp] theorem State.commit_phase (s : State) : (s.commit).phase = s.phase := rfl
@[simp] theorem State.commit_err (s : State) : (s.commit).err = s.err := rfl
@[simp] theorem State.commit_buf (s : State) : (s.commit).buf = s.shr := rfl
@[simp] theorem State.commit_shr (s : State) : (s.commit).shr = s.shr := rfl
@[simp] theorem State.commit_snap (s : State) : (s.commit).snap = true := rfl
@[simp] theorem State.commit_loadN (s : State) : (s.commit).loadN = s.loadN := rfl
@[simp] theorem State.commit_ceN (s : State) : (s.commit).ceN = s.ceN := rfl
@[simp] theorem State.commit_clk (s : State) : (s.commit).clk = s.clk := rfl
@[simp] theorem State.commit_ph (s : State) : (s.commit).ph = s.ph := rfl
@[simp] theorem State.commit_cur (s : State) : (s.commit).cur = s.cur := rfl
@[simp] theorem State.commit_plv (s : State) : (s.commit).plv = s.plv := rfl
@[simp] theorem State.commit_nset (s : State) : (s.commit).nset = s.nset := rfl
@[simp] theorem State.commit_initset (s : State) : (s.commit).initset = s.initset := rfl
@[simp] theorem State.commit_wrap (s : State) : (s.commit).wrap = s.wrap := rfl
@[simp] theorem State.commit_inccfg (s : State) : (s.commit).inccfg = s.inccfg := rfl
@[simp] theorem State.commit_elems (s : State) : (s.commit).elems = s.elems := rfl
@[simp] theorem State.commit_resp (s : State) : (s.commit).resp = s.resp := rfl
@[simp] theorem State.commit_respValid (s : State) : (s.commit).respValid = s.respValid := rfl
@[simp] theorem State.commit_evValid (s : State) : (s.commit).evValid = s.evValid := rfl
@[simp] theorem State.commit_pt (s : State) : (s.commit).pt = s.pt := rfl
@[simp] theorem State.commit_ev (s : State) : (s.commit).ev = s.ev := rfl
@[simp] theorem State.commit_params (s : State) : (s.commit).params = s.params := rfl
@[simp] theorem State.commit_responses (s : State) : (s.commit).responses = s.responses := rfl
@[simp] theorem State.commit_port (s : State) : (s.commit).port = s.port := rfl
@[simp] theorem State.commit_dataIn (s : State) : (s.commit).dataIn = s.dataIn := rfl
@[simp] theorem State.commit_incIn (s : State) : (s.commit).incIn = s.incIn := rfl
@[simp] theorem State.commit_posIn (s : State) : (s.commit).posIn = s.posIn := rfl
@[simp] theorem State.commit_draws (s : State) : (s.commit).draws = s.draws := rfl

/-! `State.setPh`. -/

@[simp] theorem State.setPh_phase (s : State) (k : BitVec 6) : (s.setPh k).phase = s.phase := rfl
@[simp] theorem State.setPh_err (s : State) (k : BitVec 6) : (s.setPh k).err = s.err := rfl
@[simp] theorem State.setPh_buf (s : State) (k : BitVec 6) : (s.setPh k).buf = s.buf := rfl
@[simp] theorem State.setPh_shr (s : State) (k : BitVec 6) : (s.setPh k).shr = s.shr := rfl
@[simp] theorem State.setPh_snap (s : State) (k : BitVec 6) : (s.setPh k).snap = s.snap := rfl
@[simp] theorem State.setPh_loadN (s : State) (k : BitVec 6) : (s.setPh k).loadN = s.loadN := rfl
@[simp] theorem State.setPh_ceN (s : State) (k : BitVec 6) : (s.setPh k).ceN = s.ceN := rfl
@[simp] theorem State.setPh_clk (s : State) (k : BitVec 6) : (s.setPh k).clk = s.clk := rfl
@[simp] theorem State.setPh_ph (s : State) (k : BitVec 6) : (s.setPh k).ph = k := rfl
@[simp] theorem State.setPh_cur (s : State) (k : BitVec 6) : (s.setPh k).cur = s.cur := rfl
@[simp] theorem State.setPh_plv (s : State) (k : BitVec 6) : (s.setPh k).plv = s.plv := rfl
@[simp] theorem State.setPh_nset (s : State) (k : BitVec 6) : (s.setPh k).nset = s.nset := rfl
@[simp] theorem State.setPh_initset (s : State) (k : BitVec 6) : (s.setPh k).initset = s.initset := rfl
@[simp] theorem State.setPh_wrap (s : State) (k : BitVec 6) : (s.setPh k).wrap = s.wrap := rfl
@[simp] theorem State.setPh_inccfg (s : State) (k : BitVec 6) : (s.setPh k).inccfg = s.inccfg := rfl
@[simp] theorem State.setPh_elems (s : State) (k : BitVec 6) : (s.setPh k).elems = s.elems := rfl
@[simp] theorem State.setPh_resp (s : State) (k : BitVec 6) : (s.setPh k).resp = s.resp := rfl
@[simp] theorem State.setPh_respValid (s : State) (k : BitVec 6) : (s.setPh k).respValid = s.respValid := rfl
@[simp] theorem State.setPh_evValid (s : State) (k : BitVec 6) : (s.setPh k).evValid = s.evValid := rfl
@[simp] theorem State.setPh_pt (s : State) (k : BitVec 6) : (s.setPh k).pt = s.pt := rfl
@[simp] theorem State.setPh_ev (s : State) (k : BitVec 6) : (s.setPh k).ev = s.ev := rfl
@[simp] theorem State.setPh_params (s : State) (k : BitVec 6) : (s.setPh k).params = s.params := rfl
@[simp] theorem State.setPh_responses (s : State) (k : BitVec 6) : (s.setPh k).responses = s.responses := rfl
@[simp] theorem State.setPh_port (s : State) (k : BitVec 6) : (s.setPh k).port = s.port := rfl
@[simp] theorem State.setPh_dataIn (s : State) (k : BitVec 6) : (s.setPh k).dataIn = s.dataIn := rfl
@[simp] theorem State.setPh_incIn (s : State) (k : BitVec 6) : (s.setPh k).incIn = s.incIn := rfl
@[simp] theorem State.setPh_posIn (s : State) (k : BitVec 6) : (s.setPh k).posIn = s.posIn := rfl
@[simp] theorem State.setPh_draws (s : State) (k : BitVec 6) : (s.setPh k).draws = s.draws := rfl

/-! `State.strobesLow`. -/

@[simp] theorem State.strobesLow_phase (s : State) : (s.strobesLow).phase = s.phase := rfl
@[simp] theorem State.strobesLow_err (s : State) : (s.strobesLow).err = s.err := rfl
@[simp] theorem State.strobesLow_buf (s : State) : (s.strobesLow).buf = s.buf := rfl
@[simp] theorem State.strobesLow_shr (s : State) : (s.strobesLow).shr = s.shr := rfl
@[simp] theorem State.strobesLow_snap (s : State) : (s.strobesLow).snap = s.snap := rfl
@[simp] theorem State.strobesLow_loadN (s : State) : (s.strobesLow).loadN = s.loadN := rfl
@[simp] theorem State.strobesLow_ceN (s : State) : (s.strobesLow).ceN = s.ceN := rfl
@[simp] theorem State.strobesLow_clk (s : State) : (s.strobesLow).clk = s.clk := rfl
@[simp] theorem State.strobesLow_ph (s : State) : (s.strobesLow).ph = s.ph := rfl
@[simp] theorem State.strobesLow_cur (s : State) : (s.strobesLow).cur = s.cur := rfl
@[simp] theorem State.strobesLow_plv (s : State) : (s.strobesLow).plv = s.plv := rfl
@[simp] theorem State.strobesLow_nset (s : State) : (s.strobesLow).nset = s.nset := rfl
@[simp] theorem State.strobesLow_initset (s : State) : (s.strobesLow).initset = s.initset := rfl
@[simp] theorem State.strobesLow_wrap (s : State) : (s.strobesLow).wrap = s.wrap := rfl
@[simp] theorem State.strobesLow_inccfg (s : State) : (s.strobesLow).inccfg = s.inccfg := rfl
@[simp] theorem State.strobesLow_elems (s : State) : (s.strobesLow).elems = s.elems := rfl
@[simp] theorem State.strobesLow_resp (s : State) : (s.strobesLow).resp = s.resp := rfl
@[simp] theorem State.strobesLow_respValid (s : State) : (s.strobesLow).respValid = false := rfl
@[simp] theorem State.strobesLow_evValid (s : State) : (s.strobesLow).evValid = false := rfl
@[simp] theorem State.strobesLow_pt (s : State) : (s.strobesLow).pt = s.pt := rfl
@[simp] theorem State.strobesLow_ev (s : State) : (s.strobesLow).ev = s.ev := rfl
@[simp] theorem State.strobesLow_params (s : State) : (s.strobesLow).params = s.params := rfl
@[simp] theorem State.strobesLow_responses (s : State) : (s.strobesLow).responses = s.responses := rfl
@[simp] theorem State.strobesLow_port (s : State) : (s.strobesLow).port = s.port := rfl
@[simp] theorem State.strobesLow_dataIn (s : State) : (s.strobesLow).dataIn = s.dataIn := rfl
@[simp] theorem State.strobesLow_incIn (s : State) : (s.strobesLow).incIn = s.incIn := rfl
@[simp] theorem State.strobesLow_posIn (s : State) : (s.strobesLow).posIn = s.posIn := rfl
@[simp] theorem State.strobesLow_draws (s : State) : (s.strobesLow).draws = s.draws := rfl

/-! `State.accept`. -/

@[simp] theorem State.accept_phase (s : State) (rest : List PortInput) : (s.accept rest).phase = s.phase := rfl
@[simp] theorem State.accept_err (s : State) (rest : List PortInput) : (s.accept rest).err = s.err := rfl
@[simp] theorem State.accept_buf (s : State) (rest : List PortInput) : (s.accept rest).buf = s.buf := rfl
@[simp] theorem State.accept_shr (s : State) (rest : List PortInput) : (s.accept rest).shr = s.shr := rfl
@[simp] theorem State.accept_snap (s : State) (rest : List PortInput) : (s.accept rest).snap = s.snap := rfl
@[simp] theorem State.accept_loadN (s : State) (rest : List PortInput) : (s.accept rest).loadN = s.loadN := rfl
@[simp] theorem State.accept_ceN (s : State) (rest : List PortInput) : (s.accept rest).ceN = s.ceN := rfl
@[simp] theorem State.accept_clk (s : State) (rest : List PortInput) : (s.accept rest).clk = s.clk := rfl
@[simp] theorem State.accept_ph (s : State) (rest : List PortInput) : (s.accept rest).ph = s.ph := rfl
@[simp] theorem State.accept_cur (s : State) (rest : List PortInput) : (s.accept rest).cur = s.cur := rfl
@[simp] theorem State.accept_plv (s : State) (rest : List PortInput) : (s.accept rest).plv = s.plv := rfl
@[simp] theorem State.accept_nset (s : State) (rest : List PortInput) : (s.accept rest).nset = s.nset := rfl
@[simp] theorem State.accept_initset (s : State) (rest : List PortInput) : (s.accept rest).initset = s.initset := rfl
@[simp] theorem State.accept_wrap (s : State) (rest : List PortInput) : (s.accept rest).wrap = s.wrap := rfl
@[simp] theorem State.accept_inccfg (s : State) (rest : List PortInput) : (s.accept rest).inccfg = s.inccfg := rfl
@[simp] theorem State.accept_elems (s : State) (rest : List PortInput) : (s.accept rest).elems = s.elems := rfl
@[simp] theorem State.accept_resp (s : State) (rest : List PortInput) : (s.accept rest).resp = s.resp := rfl
@[simp] theorem State.accept_respValid (s : State) (rest : List PortInput) : (s.accept rest).respValid = false := rfl
@[simp] theorem State.accept_evValid (s : State) (rest : List PortInput) : (s.accept rest).evValid = false := rfl
@[simp] theorem State.accept_pt (s : State) (rest : List PortInput) : (s.accept rest).pt = s.pt := rfl
@[simp] theorem State.accept_ev (s : State) (rest : List PortInput) : (s.accept rest).ev = s.ev := rfl
@[simp] theorem State.accept_params (s : State) (rest : List PortInput) : (s.accept rest).params = s.params := rfl
@[simp] theorem State.accept_responses (s : State) (rest : List PortInput) : (s.accept rest).responses = s.responses := rfl
@[simp] theorem State.accept_port (s : State) (rest : List PortInput) : (s.accept rest).port = rest := rfl
@[simp] theorem State.accept_dataIn (s : State) (rest : List PortInput) : (s.accept rest).dataIn = s.dataIn := rfl
@[simp] theorem State.accept_incIn (s : State) (rest : List PortInput) : (s.accept rest).incIn = s.incIn := rfl
@[simp] theorem State.accept_posIn (s : State) (rest : List PortInput) : (s.accept rest).posIn = s.posIn := rfl
@[simp] theorem State.accept_draws (s : State) (rest : List PortInput) : (s.accept rest).draws = s.draws := rfl

/-! `State.construct`. -/

@[simp] theorem State.construct_phase (s : State) : (s.construct).phase = .run := rfl
@[simp] theorem State.construct_err (s : State) : (s.construct).err = s.err := rfl
@[simp] theorem State.construct_buf (s : State) : (s.construct).buf = s.buf := rfl
@[simp] theorem State.construct_shr (s : State) : (s.construct).shr = s.shr := rfl
@[simp] theorem State.construct_snap (s : State) : (s.construct).snap = s.snap := rfl
@[simp] theorem State.construct_loadN (s : State) : (s.construct).loadN = s.loadN := rfl
@[simp] theorem State.construct_ceN (s : State) : (s.construct).ceN = s.ceN := rfl
@[simp] theorem State.construct_clk (s : State) : (s.construct).clk = s.clk := rfl
@[simp] theorem State.construct_ph (s : State) : (s.construct).ph = s.ph := rfl
@[simp] theorem State.construct_cur (s : State) : (s.construct).cur = s.initset := rfl
@[simp] theorem State.construct_plv (s : State) : (s.construct).plv = !incAct s.inccfg := rfl
@[simp] theorem State.construct_nset (s : State) : (s.construct).nset = s.nset := rfl
@[simp] theorem State.construct_initset (s : State) : (s.construct).initset = s.initset := rfl
@[simp] theorem State.construct_wrap (s : State) : (s.construct).wrap = s.wrap := rfl
@[simp] theorem State.construct_inccfg (s : State) : (s.construct).inccfg = s.inccfg := rfl
@[simp] theorem State.construct_elems (s : State) : (s.construct).elems = s.elems.map fun el => { el with prev := 0 } := rfl
@[simp] theorem State.construct_resp (s : State) : (s.construct).resp = s.resp := rfl
@[simp] theorem State.construct_respValid (s : State) : (s.construct).respValid = s.respValid := rfl
@[simp] theorem State.construct_evValid (s : State) : (s.construct).evValid = s.evValid := rfl
@[simp] theorem State.construct_pt (s : State) : (s.construct).pt = s.pt := rfl
@[simp] theorem State.construct_ev (s : State) : (s.construct).ev = s.ev := rfl
@[simp] theorem State.construct_params (s : State) : (s.construct).params = s.params := rfl
@[simp] theorem State.construct_responses (s : State) : (s.construct).responses = s.responses := rfl
@[simp] theorem State.construct_port (s : State) : (s.construct).port = s.port := rfl
@[simp] theorem State.construct_dataIn (s : State) : (s.construct).dataIn = s.dataIn := rfl
@[simp] theorem State.construct_incIn (s : State) : (s.construct).incIn = s.incIn := rfl
@[simp] theorem State.construct_posIn (s : State) : (s.construct).posIn = s.posIn := rfl
@[simp] theorem State.construct_draws (s : State) : (s.construct).draws = s.draws := rfl

/-! `State.presenting`. -/

@[simp] theorem State.presenting_phase (s : State) (w : Word) : (s.presenting w).phase = s.phase := rfl
@[simp] theorem State.presenting_err (s : State) (w : Word) : (s.presenting w).err = s.err := rfl
@[simp] theorem State.presenting_buf (s : State) (w : Word) : (s.presenting w).buf = s.buf := rfl
@[simp] theorem State.presenting_shr (s : State) (w : Word) : (s.presenting w).shr = s.shr := rfl
@[simp] theorem State.presenting_snap (s : State) (w : Word) : (s.presenting w).snap = s.snap := rfl
@[simp] theorem State.presenting_loadN (s : State) (w : Word) : (s.presenting w).loadN = s.loadN := rfl
@[simp] theorem State.presenting_ceN (s : State) (w : Word) : (s.presenting w).ceN = s.ceN := rfl
@[simp] theorem State.presenting_clk (s : State) (w : Word) : (s.presenting w).clk = s.clk := rfl
@[simp] theorem State.presenting_ph (s : State) (w : Word) : (s.presenting w).ph = 0#6 := rfl
@[simp] theorem State.presenting_cur (s : State) (w : Word) : (s.presenting w).cur = s.cur := rfl
@[simp] theorem State.presenting_plv (s : State) (w : Word) : (s.presenting w).plv = s.plv := rfl
@[simp] theorem State.presenting_nset (s : State) (w : Word) : (s.presenting w).nset = s.nset := rfl
@[simp] theorem State.presenting_initset (s : State) (w : Word) : (s.presenting w).initset = s.initset := rfl
@[simp] theorem State.presenting_wrap (s : State) (w : Word) : (s.presenting w).wrap = s.wrap := rfl
@[simp] theorem State.presenting_inccfg (s : State) (w : Word) : (s.presenting w).inccfg = s.inccfg := rfl
@[simp] theorem State.presenting_elems (s : State) (w : Word) : (s.presenting w).elems = s.elems := rfl
@[simp] theorem State.presenting_resp (s : State) (w : Word) : (s.presenting w).resp = s.resp := rfl
@[simp] theorem State.presenting_respValid (s : State) (w : Word) : (s.presenting w).respValid = s.respValid := rfl
@[simp] theorem State.presenting_evValid (s : State) (w : Word) : (s.presenting w).evValid = s.evValid := rfl
@[simp] theorem State.presenting_pt (s : State) (w : Word) : (s.presenting w).pt = s.pt := rfl
@[simp] theorem State.presenting_ev (s : State) (w : Word) : (s.presenting w).ev = s.ev := rfl
@[simp] theorem State.presenting_params (s : State) (w : Word) : (s.presenting w).params = s.params := rfl
@[simp] theorem State.presenting_responses (s : State) (w : Word) : (s.presenting w).responses = s.responses := rfl
@[simp] theorem State.presenting_port (s : State) (w : Word) : (s.presenting w).port = .command w :: s.port := rfl
@[simp] theorem State.presenting_dataIn (s : State) (w : Word) : (s.presenting w).dataIn = s.dataIn := rfl
@[simp] theorem State.presenting_incIn (s : State) (w : Word) : (s.presenting w).incIn = s.incIn := rfl
@[simp] theorem State.presenting_posIn (s : State) (w : Word) : (s.presenting w).posIn = s.posIn := rfl
@[simp] theorem State.presenting_draws (s : State) (w : Word) : (s.presenting w).draws = s.draws := rfl

/-! The compound updates are the primitive ones. -/

@[simp] theorem State.respondOk_eq (s : State) (value : Half) : s.respondOk value = s.respond 0#4 value := rfl

@[simp] theorem State.raise_illegalCommand (s : State) : s.raise .illegalCommand = s.respond 8#4 0#16 := rfl

@[simp] theorem State.raise_wrongPhase (s : State) : s.raise .wrongPhase = s.respond 9#4 0#16 := rfl

theorem State.raise_construction (s : State) (c : InitError) :
    s.raise (.construction c) = { s with phase := .rejected, err := some c }.respond c.code 0#16 := rfl

theorem State.sampleBit_eq (s : State) (i : Nat) :
    s.sampleBit i = { s.dataTaken with shr := setSnapshotBit s.shr i s.dataLevel } := rfl

@[simp] theorem State.takeReset_params (s : State) (rest : List PortInput) : (s.takeReset rest).params = s.params := rfl

@[simp] theorem State.takeReset_port (s : State) (rest : List PortInput) : (s.takeReset rest).port = rest := rfl

end Sys2Proof.Machine
end

