-- ==== Sys2Proof/Laws/Ops.lean ====
section
/-! SUPPORT. What each shared operation can do, said once: the refusals, the response word, the line space, positions, the
selector's transition, the resolver's fields, and the cases of a step. -/

namespace Sys2Proof

/-- The default instance is in the ranges of 00_scope.md R5, whatever its open parameters are. -/
theorem Params.default_wf : Params.default.wf := ⟨by decide, by decide, by decide, Nat.succ_le_succ (Nat.zero_le _)⟩

end Sys2Proof

namespace Sys2Proof.Machine

open Sys2Proof.Safety

/-! Performing a command. -/

theorem perform_illegal {need : Need} {s : State} {body : Result} :
    perform false need s body = .next (s.respond 8#4 0#16) := rfl

theorem perform_wrongPhase {need : Need} {s : State} {body : Result} (h : need.allows s.phase = false) :
    perform true need s body = .next (s.respond 9#4 0#16) := by simp [perform, h]

theorem perform_body {need : Need} {s : State} {body : Result} (h : need.allows s.phase = true) :
    perform true need s body = body := by simp [perform, h]

/-- A command answers a refusal, or its own effect. -/
theorem perform_cases (ok : Bool) (need : Need) (s : State) (body : Result) :
    (ok = false ∧ perform ok need s body = .next (s.respond 8#4 0#16)) ∨
    (ok = true ∧ need.allows s.phase = false ∧ perform ok need s body = .next (s.respond 9#4 0#16)) ∨
    (ok = true ∧ need.allows s.phase = true ∧ perform ok need s body = body) := by
  cases ok
  · exact .inl ⟨rfl, rfl⟩
  · cases h : need.allows s.phase
    · exact .inr (.inl ⟨rfl, rfl, perform_wrongPhase h⟩)
    · exact .inr (.inr ⟨rfl, rfl, perform_body h⟩)

@[simp] theorem allows_configOnly (ph : Phase) : Need.configOnly.allows ph = decide (ph = .config) := by cases ph <;> rfl

@[simp] theorem allows_runOnly (ph : Phase) : Need.runOnly.allows ph = decide (ph = .run) := by cases ph <;> rfl

@[simp] theorem allows_anyPhase (ph : Phase) : Need.anyPhase.allows ph = true := rfl

/-! Responses. -/

theorem respond_eq_answered (s : State) (status : BitVec 4) (value : Half) :
    s.respond status value = answered s (responseWord status value) := rfl

theorem responseWord_toNat (status : BitVec 4) (value : Half) :
    (responseWord status value).toNat = status.toNat * 2 ^ 28 + value.toNat := by
  have h1 := value.isLt
  have h2 : (responseWord status value).toNat = ((status ++ 0#12 : BitVec 16) ++ value).toNat := rfl
  rw [h2, BitVec.toNat_append, BitVec.toNat_append, Nat.shiftLeft_eq, Nat.shiftLeft_eq]
  have h3 : status.toNat * 2 ^ 12 ||| (0#12).toNat = status.toNat * 2 ^ 12 := by simp
  rw [h3, Nat.mul_comm _ (2 ^ 16), ← Nat.two_pow_add_eq_or_of_lt h1]
  omega

/-- A response with status 0 is its value. -/
theorem responseWord_ok (value : Half) : responseWord 0#4 value = value.setWidth 32 := by
  apply BitVec.eq_of_toNat_eq
  have := value.isLt
  rw [responseWord_toNat, BitVec.toNat_setWidth]
  simp
  omega

theorem respond_wrongPhase (s : State) : s.respond 9#4 0#16 = answered s 0x90000000#32 := rfl

theorem respond_illegalCommand (s : State) : s.respond 8#4 0#16 = answered s 0x80000000#32 := rfl

/-- The setting in bits 15:8, the detector's answer in bits 1:0 (43_selector.md R151). -/
theorem seluValue_toNat (c : BitVec 8) (d : Det) : (seluValue c d).toNat = 256 * c.toNat + d.code.toNat := by
  have hd := d.code.isLt
  have e : (seluValue c d).toNat = ((c ++ 0#6 : BitVec 14) ++ d.code).toNat := rfl
  have z : c.toNat * 2 ^ 6 ||| (0#6).toNat = c.toNat * 2 ^ 6 := by simp
  rw [e, BitVec.toNat_append, BitVec.toNat_append, Nat.shiftLeft_eq, Nat.shiftLeft_eq, z, Nat.mul_comm _ (2 ^ 2),
    ← Nat.two_pow_add_eq_or_of_lt hd]
  omega

/-! The line space. -/

theorem snapshotBit_setSnapshotBit (b : BitVec 8) (i : Nat) (d : Bool) (j : Nat) (hj : j < 8) :
    (setSnapshotBit b i d).getLsbD j = if j = i then d else b.getLsbD j := by
  unfold setSnapshotBit
  by_cases hij : j = i
  · subst hij
    cases d <;> simp [hj]
  · have hne : ¬ j < i → j - i ≠ 0 := by omega
    cases d <;> simp [hj, hij] <;> omega

/-! Positions. -/

theorem wrapInt_lower {w : Nat} (hw : 1 ≤ w) (z : Int) : -(2 ^ (w - 1) : Int) ≤ wrapInt w z := by
  obtain ⟨k, rfl⟩ : ∃ k, w = k + 1 := ⟨w - 1, by omega⟩
  have h : 0 < 2 ^ (k + 1) := by positivity
  have := Int.le_bmod (x := z) (m := 2 ^ (k + 1)) h
  simp only [wrapInt, Nat.add_sub_cancel]
  rw [Nat.pow_succ] at this
  rw [Nat.pow_succ]
  push_cast at this
  omega

theorem wrapInt_upper {w : Nat} (hw : 1 ≤ w) (z : Int) : wrapInt w z < 2 ^ (w - 1) := by
  obtain ⟨k, rfl⟩ : ∃ k, w = k + 1 := ⟨w - 1, by omega⟩
  have h : 0 < 2 ^ (k + 1) := by positivity
  have := Int.bmod_lt (x := z) (m := 2 ^ (k + 1)) h
  simp only [wrapInt, Nat.add_sub_cancel]
  rw [Nat.pow_succ] at this
  rw [Nat.pow_succ]
  push_cast at this
  omega

/-- A value of the signed range is its own pattern's value. -/
theorem wrapInt_of_range {w : Nat} (hw : 1 ≤ w) {z : Int} (h1 : -(2 ^ (w - 1) : Int) ≤ z) (h2 : z < 2 ^ (w - 1)) :
    wrapInt w z = z := by
  obtain ⟨k, rfl⟩ : ∃ k, w = k + 1 := ⟨w - 1, by omega⟩
  simp only [Nat.add_sub_cancel] at h1 h2
  have hm : (2 ^ (k + 1) : Nat) = 2 ^ k * 2 := Nat.pow_succ ..
  have hc : ((2 ^ k : Nat) : Int) = 2 ^ k := by push_cast; rfl
  exact Int.bmod_eq_of_le (by rw [hm]; omega) (by rw [hm]; omega)

/-! The selector. -/

/-- The transition keeps the setting in range (43_selector.md R155). -/
theorem nextSetting_lt {nset cur : BitVec 8} {wrap : Bool} (h : cur.toNat < nset.toNat) :
    (nextSetting nset wrap cur).toNat < nset.toNat := by
  have hn := nset.isLt
  unfold nextSetting
  split
  · split
    · simp only [BitVec.toNat_ofNat]; omega
    · rw [BitVec.toNat_sub]; simp only [BitVec.toNat_ofNat]; omega
  · simp only [BitVec.toNat_ofNat]; omega

/-! The sequencer. -/

/-- Everything a micro-operation can do (44_shiftreg.md R173). -/
theorem microStep_cases (sp : SamplePoint) (s : State) :
    (s.ph.toNat = 0 ∧ microStep sp s = .next s) ∨
    (s.ph.toNat = 1 ∧ microStep sp s = .next (s.drive .loadN false).nextPhase) ∨
    (s.ph.toNat = 2 ∧ microStep sp s = .next (s.drive .loadN true).nextPhase) ∨
    (s.ph.toNat = 3 ∧ microStep sp s = .next (s.drive .ceN false).nextPhase) ∨
    (∃ i r, i < s.params.n ∧ r < 3 ∧ s.ph.toNat = 4 + 3 * i + r ∧
      microStep sp s = .next (s.bitRow sp i r).nextPhase) ∨
    (s.ph.toNat = 4 + 3 * s.params.n ∧ microStep sp s = .next s.lastPhase) ∨
    (4 + 3 * s.params.n < s.ph.toNat ∧ microStep sp s = .fault .sequencerOutOfRange) := by
  have e : microStep sp s =
      if s.ph.toNat = 0 then .next s
      else if s.ph.toNat = 1 then .next (s.drive .loadN false).nextPhase
      else if s.ph.toNat = 2 then .next (s.drive .loadN true).nextPhase
      else if s.ph.toNat = 3 then .next (s.drive .ceN false).nextPhase
      else if s.ph.toNat < 4 + 3 * s.params.n then
        .next (s.bitRow sp ((s.ph.toNat - 4) / 3) ((s.ph.toNat - 4) % 3)).nextPhase
      else if s.ph.toNat = 4 + 3 * s.params.n then .next s.lastPhase
      else .fault .sequencerOutOfRange := rfl
  generalize s.ph.toNat = k at e
  rcases Nat.lt_trichotomy k (4 + 3 * s.params.n) with h | h | h
  · obtain rfl | rfl | rfl | rfl | h4 : k = 0 ∨ k = 1 ∨ k = 2 ∨ k = 3 ∨ 4 ≤ k := by omega
    · exact .inl ⟨rfl, e⟩
    · exact .inr (.inl ⟨rfl, e⟩)
    · exact .inr (.inr (.inl ⟨rfl, e⟩))
    · exact .inr (.inr (.inr (.inl ⟨rfl, e⟩)))
    · refine .inr (.inr (.inr (.inr (.inl ⟨(k - 4) / 3, (k - 4) % 3, by omega, by omega, by omega, ?_⟩))))
      rw [e, if_neg (by omega), if_neg (by omega), if_neg (by omega), if_neg (by omega), if_pos h]
  · refine .inr (.inr (.inr (.inr (.inr (.inl ⟨h, ?_⟩)))))
    rw [e, if_neg (by omega), if_neg (by omega), if_neg (by omega), if_neg (by omega), if_neg (by omega), if_pos h]
  · refine .inr (.inr (.inr (.inr (.inr (.inr ⟨h, ?_⟩)))))
    rw [e, if_neg (by omega), if_neg (by omega), if_neg (by omega), if_neg (by omega), if_neg (by omega),
      if_neg (by omega)]

/-! The step. -/

/-- Everything a step can do: a reset, a micro-operation, a command, an illegal word, or an idle turn. -/
theorem step_cases (s : State) :
    (∃ rest, s.port = .reset :: rest ∧ step s = .next (s.takeReset rest)) ∨
    (s.port.head? ≠ some .reset ∧ s.ph ≠ 0#6 ∧ step s = microStep s.params.samplePoint s.strobesLow) ∨
    (∃ w rest i, s.port = .command w :: rest ∧ s.ph = 0#6 ∧ decode s.params w = some i ∧
      step s = exec i (s.accept rest)) ∨
    (∃ w rest, s.port = .command w :: rest ∧ s.ph = 0#6 ∧ decode s.params w = none ∧
      step s = .next ((s.accept rest).respond 8#4 0#16)) ∨
    (s.port = [] ∧ s.ph = 0#6 ∧ step s = .next s.strobesLow) := by
  rcases hp : s.port with _ | ⟨x, rest⟩
  · by_cases h : s.ph = 0#6
    · simp [step, State.turn, State.cmdReady, hp, h]
    · simp [step, State.turn, State.cmdReady, hp, h]
  · cases x with
    | reset => simp [step, State.turn, hp]
    | command w =>
      by_cases h : s.ph = 0#6
      · rcases hd : decode s.params w with _ | i
        · simp [step, State.turn, State.cmdReady, hp, h, execWord, hd]
        · simp [step, State.turn, State.cmdReady, hp, h, execWord, hd]
      · simp [step, State.turn, State.cmdReady, hp, h]

end Sys2Proof.Machine
end

