-- ==== Sys2Proof/Laws/Exec.lean ====
section
/-! SUPPORT. What a command can do when it completes, said once (`exec_next`), and the closed forms of the operations its own
effect is made of: the construction check, a write of a configuration register, the transition, truncating division, the packing
of an address, and the snapshot of an SRU. -/

namespace Sys2Proof.Laws

open Sys2Proof Sys2Proof.Machine Sys2Proof.Safety

/-! ## The inversion of a completed command -/

theorem perform_next {ok : Bool} {need : Need} {s t : State} {body : Result} (h : perform ok need s body = .next t) :
    t = s.respond 8#4 0#16 ∨ t = s.respond 9#4 0#16 ∨ (ok = true ∧ need.allows s.phase = true ∧ body = .next t) := by
  rcases perform_cases ok need s body with ⟨_, e⟩ | ⟨_, _, e⟩ | ⟨a, b, e⟩ <;> rw [e] at h
  · injection h with h
    exact .inl h.symm
  · injection h with h
    exact .inr (.inl h.symm)
  · exact .inr (.inr ⟨a, b, h⟩)

/-- The own effect of each command, with the guards under which it has it. -/
inductive Effect : Instr → State → State → Prop
  | cfgw {reg v s s'} : s.phase = .config → s.writeReg? reg v = some s' → Effect (.cfgw reg v) s (s'.respond 0#4 0#16)
  | initOk {s} : s.phase = .config → constructionCheck s = none → Effect .init s (s.construct.respond 0#4 0#16)
  | initBad {s c} : s.phase = .config → constructionCheck s = some c → Effect .init s (s.raise (.construction c))
  | stat {s} : Effect .stat s (s.respond 0#4 (statValue s.snap s.err s.phase))
  | sru {s} : s.phase = .run → Effect .sru s s.takeSnapshot
  | rd {s l} : s.phase = .run → Effect (.rd l) s (s.respond 0#4 (bitValue (snapshotBit s.buf l.val)))
  | rdb {s l} : s.phase = .run → Effect (.rdb l) s (s.respond 0#4 (bitValue (snapshotBit s.buf l.val)))
  | ard {s l} : s.phase = .run → Effect (.ard l) s (s.respond 0#4 0#16)
  | wr {s l v} : s.phase = .run → Effect (.wr l v) s (s.respond 0#4 0#16)
  | awr {s l v} : s.phase = .run → Effect (.awr l v) s (s.respond 0#4 0#16)
  | seluPin {s} : s.phase = .run → incSrc s.inccfg = false → Effect .selu s (s.incTaken.selectorUpdate s.incLevel)
  | seluLine {s lvl} : s.phase = .run → incSrc s.inccfg = true → s.line? (incLine s.inccfg) = some lvl →
      Effect .selu s (s.selectorUpdate lvl)
  | incr {s} : s.phase = .run → Effect .incr s (s.increment.respond 0#4 (s.increment.cur.setWidth 16))
  | selr {s} : s.phase = .run → Effect .selr s (s.respond 0#4 (s.cur.setWidth 16))
  | rslv {s e el} : s.phase = .run → e.val < s.params.nenc → s.elems[e.val]? = some el →
      Effect (.rslv e) s (s.respond 0#4 ((s.resolved el).setWidth 16))
  | encu {s e el} : s.phase = .run → e.val < s.params.nenc → s.elems[e.val]? = some el → el.pps ≠ 0#16 →
      Effect (.encu e) s
        (s.posTaken.translate e el (stepsMoved (positionDiff s.params.posW s.posSample el.prev) el.pps))

/-- A command that completes is refused for its word, refused for its phase, or has its own effect. -/
theorem exec_next {i : Instr} {s t : State} (h : exec i s = .next t) :
    t = s.respond 8#4 0#16 ∨ t = s.respond 9#4 0#16 ∨ Effect i s t := by
  cases i <;> simp only [exec] at h
  all_goals
    rcases perform_next h with h | h | ⟨hok, ha, h⟩ <;> [exact .inl h; exact .inr (.inl h); (right; right)]
  all_goals simp at ha
  case cfgw =>
    split at h
    · injection h with h
      subst h
      exact .cfgw ha ‹_›
    · cases h
  case init =>
    split at h <;> injection h with h <;> subst h
    · exact .initOk ha ‹_›
    · exact .initBad ha ‹_›
  case selu =>
    split at h
    · split at h
      · injection h with h
        subst h
        exact .seluLine ha ‹_› ‹_›
      · cases h
    · next hs =>
      injection h with h
      subst h
      exact .seluPin ha (by simpa using hs)
  case rslv =>
    split at h
    · injection h with h
      subst h
      exact .rslv ha (by simpa using hok) ‹_›
    · cases h
  case encu =>
    split at h
    · split at h
      · cases h
      · injection h with h
        subst h
        exact .encu ha (by simpa using hok) ‹_› ‹_›
    · cases h
  all_goals (injection h with h; subst h; first | exact .stat | constructor; assumption)

/-! ## Construction -/

open Classical in
/-- The check in the words of 40_config.md R102. -/
theorem constructionCheck_eq (s : State) :
    constructionCheck s =
      if zeroQuantum s then some .invalidQuantization
      else if zeroSettings s then some .invalidSettingCount
      else if settingTooLarge s then some .outOfRangeSetting
      else if zeroMultiplier s then some .invalidMultiplier
      else if lineTooLarge s then some .invalidIncrementLine
      else none := by
  have h1 : zeroQuantum s ↔ (s.elems.any fun el => el.pps == 0#16) = true := by simp [zeroQuantum, List.any_eq_true]
  have h4 : zeroMultiplier s ↔ (s.elems.any fun el => el.mul == 0#16) = true := by simp [zeroMultiplier, List.any_eq_true]
  have h5 : lineTooLarge s ↔ (incSrc s.inccfg && decide (s.params.n ≤ incLine s.inccfg)) = true := by simp [lineTooLarge]
  unfold constructionCheck
  simp only [h1, h4, h5, zeroSettings, settingTooLarge]

theorem updElem?_cases {s s' : State} {e : Elt} {f : Elem → Elem} (h : s.updElem? e f = some s') :
    ∃ el, s.elems[e.val]? = some el ∧ s' = { s with elems := s.elems.set e.val (f el) } := by
  unfold State.updElem? at h
  split at h
  · injection h with h
    exact ⟨_, ‹_›, h.symm⟩
  · cases h

/-- A write of a configuration register writes global registers only, or the registers of one element except its PREV. -/
theorem writeReg?_cases {s s' : State} {reg : CfgReg} {v : Half} (h : s.writeReg? reg v = some s') :
    (∃ a b c d, s' = { s with nset := a, initset := b, wrap := c, inccfg := d }) ∨
    (∃ (e : Elt) (el el' : Elem), s.elems[e.val]? = some el ∧ el'.prev = el.prev ∧
      s' = { s with elems := s.elems.set e.val el' }) := by
  cases reg <;> simp only [State.writeReg?] at h
  case nset => injection h with h; exact .inl ⟨_, s.initset, s.wrap, s.inccfg, h.symm⟩
  case initset => injection h with h; exact .inl ⟨s.nset, _, s.wrap, s.inccfg, h.symm⟩
  case wrap => injection h with h; exact .inl ⟨s.nset, s.initset, _, s.inccfg, h.symm⟩
  case inccfg => injection h with h; exact .inl ⟨s.nset, s.initset, s.wrap, _, h.symm⟩
  all_goals
    obtain ⟨el, h1, h2⟩ := updElem?_cases h
    refine .inr ⟨_, el, _, h1, ?_, h2⟩
    rfl

/-- A field that an update of one element keeps is kept in the whole list. -/
theorem map_set_keeps {α β : Type} (l : List α) (g : α → β) (e : Nat) (a b : α) (h : l[e]? = some a) (hg : g b = g a) :
    (l.set e b).map g = l.map g := by
  rw [List.map_set, hg]
  apply List.ext_getElem?
  intro j
  by_cases hj : e = j
  · subst hj
    rw [List.getElem?_set, List.getElem?_map, h]
    simp
    by_contra hl
    rw [List.getElem?_eq_none (by omega)] at h
    cases h
  · rw [List.getElem?_set_ne hj]

/-! ## The selector -/

theorem applyDet_eq (s : State) (d : Det) : s.applyDet d = { s with cur := (s.applyDet d).cur } := by cases d <;> rfl

theorem applyDet_cur_lt {s : State} {d : Det} (h : s.cur.toNat < s.nset.toNat) :
    (s.applyDet d).cur.toNat < s.nset.toNat := by
  cases d
  · exact h
  · exact nextSetting_lt h
  · exact h
  · exact h

/-- The detector's answer in bits 1:0 of the response (43_selector.md R151). -/
theorem selu_det (c : BitVec 8) (d : Det) : (responseWord 0#4 (seluValue c d)).extractLsb' 0 2 = d.code := by
  apply BitVec.eq_of_toNat_eq
  have := d.code.isLt
  rw [BitVec.extractLsb'_toNat, responseWord_toNat, seluValue_toNat]
  simp
  omega

/-! ## The encoder -/

/-- The laws of truncating division (41_encoder.md R121): the quotient and the remainder have the sign of the dividend, and the
remainder is less than the divisor. -/
theorem tdiv_facts (d : Int) (p : Nat) (hp : 0 < p) :
    ∃ r, d = d.tdiv p * p + r ∧ r.natAbs < p ∧ (0 ≤ d → 0 ≤ r ∧ 0 ≤ d.tdiv p) ∧ (d ≤ 0 → r ≤ 0 ∧ d.tdiv p ≤ 0) := by
  refine ⟨d.tmod p, ?_, ?_, ?_, ?_⟩
  · have := Int.mul_tdiv_add_tmod d p
    rw [Int.mul_comm] at this
    omega
  · rw [Int.natAbs_tmod]
    simpa using Nat.mod_lt _ hp
  · exact fun h => ⟨Int.tmod_nonneg _ h, Int.tdiv_nonneg h (by omega)⟩
  · intro h
    have h' : 0 ≤ -d := by omega
    have a := Int.tmod_nonneg (p : Int) h'
    have b := Int.tdiv_nonneg (b := (p : Int)) h' (by omega)
    rw [Int.neg_tmod] at a
    rw [Int.neg_tdiv] at b
    omega

/-! ## The resolver -/

theorem packAddress_toNat (c h : BitVec 4) (n : BitVec 7) :
    (packAddress c h n).toNat = n.toNat + 128 * h.toNat + 2048 * c.toNat := by
  have hn := n.isLt
  have hh := h.isLt
  have e : (packAddress c h n).toNat = ((c ++ h : BitVec 8) ++ n).toNat := rfl
  rw [e, BitVec.toNat_append, BitVec.toNat_append, Nat.shiftLeft_eq, Nat.shiftLeft_eq, Nat.mul_comm _ (2 ^ 7),
    ← Nat.two_pow_add_eq_or_of_lt hn, Nat.mul_comm _ (2 ^ 4), ← Nat.two_pow_add_eq_or_of_lt hh]
  ring

theorem addrNumber_toNat (a : Address) : (addrNumber a).toNat = numberOf a := by simp [addrNumber, numberOf]

theorem addrChannel_toNat (a : Address) : (addrChannel a).toNat = channelOf a := by
  simp [addrChannel, channelOf, Nat.shiftRight_eq_div_pow]

theorem addrCable_toNat (a : Address) : (addrCable a).toNat = cableOf a := by
  have := a.isLt
  simp [addrCable, cableOf, Nat.shiftRight_eq_div_pow]
  omega

/-- A field result is what 42_resolver.md R141 and R142 say of its sum. -/
theorem fieldResult_spec (ovf : AddrOvf) (w sum : Nat) : fieldIs ovf (2 ^ w - 1) sum (fieldResult ovf w sum).toNat := by
  have hp : 0 < 2 ^ w := by positivity
  unfold fieldIs fieldResult
  refine ⟨?_, ?_, ?_⟩
  · intro h
    rw [if_pos h, BitVec.toNat_ofNat, Nat.mod_eq_of_lt (by omega)]
  · rintro h rfl
    rw [if_neg (by omega)]
    simp only [BitVec.toNat_ofNat]
    exact Nat.mod_eq_of_lt (by omega)
  · rintro h rfl
    rw [if_neg (by omega)]
    simp only [BitVec.toNat_ofNat, Nat.mod_mod]
    congr 1
    omega

/-! ## The shift-register reader -/

/-- The level of the `j`-th sample from `s` on. -/
def sampleAt (s : State) (j : Nat) : Bool :=
  (s.dataIn[j]?).getD (Config.freeData (s.draws + (j - s.dataIn.length)))

/-- SHR after the first `k` samples. -/
def shrAfter (s : State) : Nat → BitVec 8
  | 0 => s.shr
  | k + 1 => setSnapshotBit (shrAfter s k) k (sampleAt s k)

/-- The pairs of `k` clock pulses. -/
def clkPairs (k : Nat) : List (Pin × Bool) := (List.replicate k [(Pin.clk, true), (Pin.clk, false)]).flatten

theorem clkPairs_succ (k : Nat) : clkPairs (k + 1) = clkPairs k ++ [(Pin.clk, true), (Pin.clk, false)] := by
  simp [clkPairs, List.replicate_succ']

/-- The state after `k` bit periods. -/
theorem shiftIn_eq (s : State) (k : Nat) :
    s.shiftIn k =
      { s with
        shr := shrAfter s k
        clk := if k = 0 then s.clk else false
        pt := s.pt ++ clkPairs k
        dataIn := s.dataIn.drop k
        draws := s.draws + (k - s.dataIn.length) } := by
  induction k with
  | zero => simp [State.shiftIn, shrAfter, clkPairs]
  | succ k ih =>
    simp only [State.shiftIn, ih, State.bitPeriod, State.drive, State.sampleBit, State.dataTaken, State.dataLevel]
    by_cases h : k < s.dataIn.length
    · obtain ⟨d, hd⟩ : ∃ d, s.dataIn.drop k = d :: s.dataIn.drop (k + 1) := ⟨_, List.drop_eq_getElem_cons h⟩
      have hs : sampleAt s k = d := by
        have : s.dataIn[k]? = some d := by simpa [List.head?_drop] using congrArg List.head? hd
        simp [sampleAt, this]
      simp [hd, shrAfter, hs, clkPairs_succ]
      omega
    · have hd : s.dataIn.drop k = [] := List.drop_eq_nil_of_le (by omega)
      have hd' : s.dataIn.drop (k + 1) = [] := List.drop_eq_nil_of_le (by omega)
      have hs : sampleAt s k = Config.freeData (s.draws + (k - s.dataIn.length)) := by
        have : s.dataIn[k]? = none := List.getElem?_eq_none (by omega)
        simp [sampleAt, this]
      simp [hd, hd', shrAfter, hs, clkPairs_succ]
      omega

/-- A bit of SHR after the first `k` samples (20_memory.md R63). -/
theorem shrAfter_bit (s : State) (k j : Nat) (hj : j < 8) :
    (shrAfter s k).getLsbD j = if j < k then sampleAt s j else s.shr.getLsbD j := by
  induction k with
  | zero => simp [shrAfter]
  | succ k ih =>
    rw [shrAfter, snapshotBit_setSnapshotBit _ _ _ _ hj, ih]
    split
    · next h => subst h; simp
    · next h =>
      by_cases h2 : j < k
      · simp [h2, Nat.lt_succ_of_lt h2]
      · have : ¬ j < k + 1 := by omega
        simp [h2, this]

theorem setSnapshotBit_lt {b : BitVec 8} {i n : Nat} {d : Bool} (hb : b.toNat < 2 ^ n) (hi : i < n) :
    (setSnapshotBit b i d).toNat < 2 ^ n := by
  apply Nat.lt_pow_two_of_testBit
  intro j hj
  by_cases hj8 : j < 8
  · rw [BitVec.testBit_toNat, snapshotBit_setSnapshotBit _ _ _ _ hj8, if_neg (by omega), ← BitVec.testBit_toNat]
    exact Nat.testBit_lt_two_pow (lt_of_lt_of_le hb (Nat.pow_le_pow_right (by omega) hj))
  · exact Nat.testBit_lt_two_pow (lt_of_lt_of_le (BitVec.isLt _) (Nat.pow_le_pow_right (by omega) (by omega)))

/-- The state after a snapshot, in closed form. -/
theorem takeSnapshot_eq (s : State) :
    s.takeSnapshot = answered
      { s with
        buf := shrAfter s s.params.n
        shr := shrAfter s s.params.n
        snap := true
        loadN := true
        ceN := true
        clk := if s.params.n = 0 then s.clk else false
        ph := 0#6
        pt := s.pt ++ sruPairs s.params.n
        dataIn := s.dataIn.drop s.params.n
        draws := s.draws + (s.params.n - s.dataIn.length) }
      ((shrAfter s s.params.n).setWidth 32) := by
  have e : ∀ k, shrAfter s.prepareReading k = shrAfter s k := by
    intro k
    induction k with
    | zero => rfl
    | succ k ih => simp only [shrAfter, ih]; rfl
  simp only [State.takeSnapshot, shiftIn_eq, e]
  simp only [State.prepareReading, State.commit, State.afterReading, State.setPh, State.respondSnapshot, State.drive,
    State.respondOk_eq, respond_eq_answered, responseWord_ok]
  simp [clkPairs, sruPairs]

/-- One row of a bit in the phase table (44_shiftreg.md R173). -/
theorem microStep_bitRow (sp : SamplePoint) (s : State) (i r : Nat) (hi : i < s.params.n) (hr : r < 3)
    (hph : s.ph.toNat = 4 + 3 * i + r) : microStep sp s = .next (s.bitRow sp i r).nextPhase := by
  rcases microStep_cases sp s with ⟨h, _⟩ | ⟨h, _⟩ | ⟨h, _⟩ | ⟨h, _⟩ | ⟨i', r', h1, h2, h3, h4⟩ | ⟨h, _⟩ | ⟨h, _⟩
  all_goals first | omega | skip
  obtain ⟨rfl, rfl⟩ : i' = i ∧ r' = r := by omega
  exact h4

/-- Micro-operations follow one another. -/
theorem microSteps_add {sp : SamplePoint} {a b : Nat} {s t : State} (h : microSteps sp a s = .next t) :
    microSteps sp (a + b) s = microSteps sp b t := by
  induction a generalizing s with
  | zero =>
    simp only [microSteps] at h
    injection h with h
    subst h
    simp
  | succ a ih =>
    rw [show a + 1 + b = (a + b) + 1 by omega]
    simp only [microSteps] at h ⊢
    cases hm : microStep sp s with
    | next u => rw [hm] at h; exact ih h
    | fault r => rw [hm] at h; cases h
    | refused r => rw [hm] at h; cases h

end Sys2Proof.Laws
end

