-- ==== Sys2Proof/Laws/PerInstr.lean ====
section
/-! SUPPORT. Facts about every command as a word, one lemma per constructor. -/

namespace Sys2Proof.Laws.Fields

/-- The word of a command carries its opcode, its reserved bits are 0, and its operands read back (30_encoding.md R82, R83). -/
def Statement (i : Instr) : Prop :=
  opField (encode i) = i.opcode.code ∧ i.opcode.format.reservedZero (encode i) = true ∧
    operands (encode i) i.opcode = some i

theorem opField_encode (i : Instr) : opField (encode i) = i.opcode.code := by
  apply BitVec.eq_of_toNat_eq
  have h1 := i.selHigh.isLt
  have h2 := i.selLow.isLt
  have h3 := i.imm.isLt
  rw [opField_toNat, encode_toNat]
  omega

theorem immField_encode (i : Instr) : immField (encode i) = i.imm := by
  apply BitVec.eq_of_toNat_eq
  have h3 := i.imm.isLt
  rw [immField_toNat, encode_toNat]
  omega

theorem eltField_encode (i : Instr) : (eltField (encode i)).val = i.selHigh.toNat := by
  have h1 := i.selHigh.isLt
  have h2 := i.selLow.isLt
  have h3 := i.imm.isLt
  rw [eltField_val, encode_toNat]
  omega

theorem regField_encode (i : Instr) : regField (encode i) = i.selLow := by
  apply BitVec.eq_of_toNat_eq
  have h2 := i.selLow.isLt
  have h3 := i.imm.isLt
  rw [regField_toNat, encode_toNat]
  omega

theorem lineField_encode (i : Instr) : (lineField (encode i)).val = i.selLow.toNat % 8 := by
  have h2 := i.selLow.isLt
  have h3 := i.imm.isLt
  rw [lineField_val, encode_toNat]
  omega

theorem eltField_eq {i : Instr} {e : Elt} (h : i.selHigh = BitVec.ofFin e) : eltField (encode i) = e := by
  apply Fin.ext
  rw [eltField_encode, h]
  rfl

theorem lineField_eq {i : Instr} {l : Line} (h : i.selLow = BitVec.ofNat 4 l.val) : lineField (encode i) = l := by
  apply Fin.ext
  have hl := l.isLt
  rw [lineField_encode, h, BitVec.toNat_ofNat]
  omega

theorem ofPair_pair (reg : CfgReg) (e : Elt) (h : reg.pairElt = BitVec.ofFin e) :
    CfgReg.ofPair e reg.pairReg = some reg := by
  cases reg
  all_goals
    simp only [CfgReg.pairElt, BitVec.ofFin.injEq] at h
    first
    | (have h0 : e = 0 := by
        apply Fin.ext
        have := congrArg BitVec.toNat h
        simpa using this.symm
       subst h0
       rfl)
    | (subst h; rfl)

theorem operands_cfgw (reg : CfgReg) (value : Half) :
    operands (encode (.cfgw reg value)) .cfgw = some (.cfgw reg value) := by
  have hp := ofPair_pair reg (eltField (encode (.cfgw reg value))) (by
    apply BitVec.eq_of_toNat_eq
    exact (eltField_encode (.cfgw reg value)).symm)
  have hr : regField (encode (.cfgw reg value)) = reg.pairReg := regField_encode _
  have hi : immField (encode (.cfgw reg value)) = value := immField_encode _
  simp only [operands, hr, hi, hp, Option.map_some]

theorem encode_toNat_line {i : Instr} {l : Line} (hh : i.selHigh = 0#4) (hl : i.selLow = BitVec.ofNat 4 l.val) :
    (encode i).toNat = i.opcode.code.toNat * 2 ^ 24 + l.val * 2 ^ 16 + i.imm.toNat := by
  have := l.isLt
  rw [encode_toNat, hh, hl, BitVec.toNat_ofNat, BitVec.toNat_ofNat]
  omega

theorem reserved_line {i : Instr} {l : Line} (hh : i.selHigh = 0#4) (hl : i.selLow = BitVec.ofNat 4 l.val) :
    Format.lv.reservedZero (encode i) = true := by
  have := l.isLt
  have h3 := i.imm.isLt
  rw [reservedZero_lv, encode_toNat_line hh hl]
  omega

theorem reserved_line_imm {i : Instr} {l : Line} (hh : i.selHigh = 0#4) (hl : i.selLow = BitVec.ofNat 4 l.val)
    (hi : i.imm = 0#16) : Format.l.reservedZero (encode i) = true := by
  have := l.isLt
  have h3 : i.imm.toNat = 0 := by rw [hi]; rfl
  rw [reservedZero_l, encode_toNat_line hh hl, h3]
  omega

theorem reserved_elt {i : Instr} (hl : i.selLow = 0#4) (hi : i.imm = 0#16) :
    Format.e.reservedZero (encode i) = true := by
  have h2 : i.selLow.toNat = 0 := by rw [hl]; rfl
  have h3 : i.imm.toNat = 0 := by rw [hi]; rfl
  rw [reservedZero_e, encode_toNat, h2, h3]
  omega

theorem cfgw (reg : CfgReg) (value : Half) : Statement (.cfgw reg value) :=
  ⟨opField_encode _, rfl, operands_cfgw reg value⟩

theorem init : Statement .init := ⟨opField_encode _, by decide, rfl⟩

theorem stat : Statement .stat := ⟨opField_encode _, by decide, rfl⟩

theorem sru : Statement .sru := ⟨opField_encode _, by decide, rfl⟩

theorem rd (line : Line) : Statement (.rd line) :=
  ⟨opField_encode _, reserved_line_imm rfl rfl rfl, congrArg (some ∘ Instr.rd) (lineField_eq rfl)⟩

theorem rdb (line : Line) : Statement (.rdb line) :=
  ⟨opField_encode _, reserved_line_imm rfl rfl rfl, congrArg (some ∘ Instr.rdb) (lineField_eq rfl)⟩

theorem ard (line : Line) : Statement (.ard line) :=
  ⟨opField_encode _, reserved_line_imm rfl rfl rfl, congrArg (some ∘ Instr.ard) (lineField_eq rfl)⟩

theorem wr (line : Line) (v : Half) : Statement (.wr line v) :=
  ⟨opField_encode _, reserved_line rfl rfl, by
    simp only [operands, Instr.opcode, lineField_eq (i := .wr line v) rfl, immField_encode, Instr.imm]⟩

theorem awr (line : Line) (v : Half) : Statement (.awr line v) :=
  ⟨opField_encode _, reserved_line rfl rfl, by
    simp only [operands, Instr.opcode, lineField_eq (i := .awr line v) rfl, immField_encode, Instr.imm]⟩

theorem selu : Statement .selu := ⟨opField_encode _, by decide, rfl⟩

theorem incr : Statement .incr := ⟨opField_encode _, by decide, rfl⟩

theorem selr : Statement .selr := ⟨opField_encode _, by decide, rfl⟩

theorem rslv (e : Elt) : Statement (.rslv e) :=
  ⟨opField_encode _, reserved_elt rfl rfl, congrArg (some ∘ Instr.rslv) (eltField_eq rfl)⟩

theorem encu (e : Elt) : Statement (.encu e) :=
  ⟨opField_encode _, reserved_elt rfl rfl, congrArg (some ∘ Instr.encu) (eltField_eq rfl)⟩

end Sys2Proof.Laws.Fields
end

