-- ==== Sys2Proof/Tests/Slice0.lean ====
section
/-! SUPPORT. Tests of the model: ill-formed commands, words written out from the spec's encodings, one step of every command on
a small state, and for every statement with hypotheses a state and operands that meet them. Expected values come from
95_test_vectors.md (the vector is named) or from the example of the command's rule. -/

namespace Sys2Proof.Tests

open Sys2Proof Sys2Proof.Machine Sys2Proof.Safety

/-! ## Helpers -/

/-- An instance with the given numbers of lines, elements and position bits, and a named value of each open parameter. -/
def built (n nenc posW : Nat) : Params :=
  { n := n, nenc := nenc, posW := posW, samplePoint := .beforeRise, addrOvf := .saturate, tPh := 1 }

/-- Four digital lines and two encoders: the second column of the decoding vectors. -/
def small : Params := built 4 2 32

/-- A constructed block: four settings at setting 3, wrap, one encoder with 4 pulses per step. -/
def running : State :=
  { State.reset with
    phase := .run, nset := 4#8, initset := 3#8, cur := 3#8, wrap := true
    elems := [{ prev := 0, pps := 4#16, mul := 1#16, base := 0x0010#15, ofs := 8#15 }] }

/-- The same block with a snapshot of `0x4D` taken (X6). -/
def snapped : State := { running with buf := 0x4D#8, shr := 0x4D#8, snap := true }

/-- A block whose construction failed. -/
def rejected : State := { State.reset with phase := .rejected, err := some .invalidQuantization }

/-- The registers of an element. -/
def elem (pps mul : BitVec 16) (prev : Int) : Elem := { prev := prev, pps := pps, mul := mul, base := 0x0010#15, ofs := 0#15 }

/-- A block being configured, with the registers the construction vectors name. -/
def configured (pps mul : BitVec 16) (nset initset : BitVec 8) (inccfg : BitVec 5) : State :=
  { State.resetOf (built 4 1 32) with
    nset := nset, initset := initset, inccfg := inccfg, elems := [elem pps mul 0] }

/-- A running block with an 8-bit position counter or a 32-bit one, one encoder, and the next position. -/
def turned (posW : Nat) (pps mul : BitVec 16) (prev pos : Int) : State :=
  { running with params := built 8 1 posW, elems := [elem pps mul prev], posIn := [pos] }

/-- The outcome is a next state that meets the check. -/
def gives (o : Host.Outcome State Fault Refusal) (check : State → Bool) : Bool :=
  match o with
  | .next t => check t
  | .fault _ => false
  | .refused _ => false

/-- The outcome is a next state. -/
def completes (o : Host.Outcome State Fault Refusal) : Bool := gives o fun _ => true

theorem next_of_completes {o : Host.Outcome State Fault Refusal} (h : completes o = true) : ∃ t, o = .next t := by
  cases o with
  | next t => exact ⟨t, rfl⟩
  | fault r => cases h
  | refused r => cases h

/-! ## Ill-formed commands are refused by the checks (30_encoding.md R88 steps 3 and 4) -/

theorem test_wf_cfgw_value : Instr.wf Params.default (.cfgw .nset 256#16) = false := by decide
theorem test_wf_cfgw_wrap : Instr.wf Params.default (.cfgw .wrap 2#16) = false := by decide
theorem test_wf_cfgw_inccfg : Instr.wf Params.default (.cfgw .inccfg 32#16) = false := by decide
theorem test_wf_cfgw_base : Instr.wf Params.default (.cfgw (.base 0) 0x8000#16) = false := by decide
theorem test_wf_cfgw_element : Instr.wf Params.default (.cfgw (.pps 1) 1#16) = false := by decide
theorem test_wf_rd_line : Instr.wf small (.rd 4) = false := by decide
theorem test_wf_rdb_line : Instr.wf small (.rdb 4) = false := by decide
theorem test_wf_rslv_element : Instr.wf small (.rslv 2) = false := by decide
theorem test_wf_encu_element : Instr.wf Params.default (.encu 1) = false := by decide

/-! ## Decoding (95_test_vectors.md 2.1): one written-out word per command, and the illegal words -/

theorem test_decode_cfgw : decode Params.default 0b00000001000010000000000000000100#32 = some (.cfgw (.pps 0) 4#16) := by decide
theorem test_decode_init : decode Params.default 0b00000010000000000000000000000000#32 = some .init := by decide
theorem test_decode_stat : decode Params.default 0b00000011000000000000000000000000#32 = some .stat := by decide
theorem test_decode_sru : decode Params.default 0b00010000000000000000000000000000#32 = some .sru := by decide
theorem test_decode_rd : decode Params.default 0b00010001000001100000000000000000#32 = some (.rd 6) := by decide
theorem test_decode_rdb : decode Params.default 0b00010010000000110000000000000000#32 = some (.rdb 3) := by decide
theorem test_decode_ard : decode small 0b00010011000001110000000000000000#32 = some (.ard 7) := by decide
theorem test_decode_wr : decode small 0b00010100000001111111111111111111#32 = some (.wr 7 0xFFFF#16) := by decide
theorem test_decode_awr : decode small 0b00010101000001110000000011111111#32 = some (.awr 7 0x00FF#16) := by decide
theorem test_decode_selu : decode Params.default 0b00100000000000000000000000000000#32 = some .selu := by decide
theorem test_decode_incr : decode Params.default 0b00100001000000000000000000000000#32 = some .incr := by decide
theorem test_decode_selr : decode Params.default 0b00100010000000000000000000000000#32 = some .selr := by decide
theorem test_decode_rslv : decode small 0b00110000000100000000000000000000#32 = some (.rslv 1) := by decide
theorem test_decode_encu : decode small 0b00110001000100000000000000000000#32 = some (.encu 1) := by decide

/-- The registers of CFGW: V19e, V19g, V19i, V19l, V19o, and a word of each of the others. -/
theorem test_decode_registers :
    decode small 0x010000FF#32 = some (.cfgw .nset 255#16) ∧ decode small 0x01010003#32 = some (.cfgw .initset 3#16) ∧
    decode small 0x01020001#32 = some (.cfgw .wrap 1#16) ∧ decode small 0x0103001F#32 = some (.cfgw .inccfg 0x1F#16) ∧
    decode small 0x01180001#32 = some (.cfgw (.pps 1) 1#16) ∧ decode small 0x01190003#32 = some (.cfgw (.mul 1) 3#16) ∧
    decode small 0x011A7FFF#32 = some (.cfgw (.base 1) 0x7FFF#16) ∧
    decode small 0x011B0080#32 = some (.cfgw (.ofs 1) 0x0080#16) := by decide

/-- Illegal on both instances. -/
def illegal (w : Word) : Bool := (decode Params.default w).isNone && (decode small w).isNone

/-- V1 to V6. -/
theorem test_illegal_reserved_z :
    [0x00000000#32, 0xFFFFFFFF#32, 0x02000001#32, 0x02010000#32, 0x03008000#32, 0x10000001#32].all illegal = true := by decide

/-- V10, V11, V13, V15 to V17. -/
theorem test_illegal_reserved_l :
    [0x11080000#32, 0x11000001#32, 0x13080000#32, 0x14080000#32, 0x15100000#32, 0x20800000#32].all illegal = true := by decide

/-- V19a, V19c, V19d, V19s. -/
theorem test_illegal_reserved_e :
    [0x30010000#32, 0x31F00000#32, 0x31000001#32, 0x04000000#32, 0x0F000000#32, 0x80000000#32].all illegal = true := by decide

/-- V19s. -/
theorem test_illegal_opcodes : [0x16000000#32, 0x23000000#32, 0x32000000#32].all illegal = true := by decide

/-- V19f, V19h, V19j, V19k, V19m, V19n, V19p, V19q. -/
theorem test_illegal_cfgw :
    [0x01000100#32, 0x01020002#32, 0x01030020#32, 0x01100000#32, 0x01040000#32, 0x010C0000#32, 0x010A8000#32,
      0x010B8000#32].all illegal = true := by decide

/-- V7 to V9, V19, V19b, V19l: the verdict depends on `N` and `NENC`. -/
theorem test_verdict_depends_on_the_instance :
    decode Params.default 0x11070000#32 = some (.rd 7) ∧ decode small 0x11070000#32 = none ∧
    decode Params.default 0x12040000#32 = some (.rdb 4) ∧ decode small 0x12040000#32 = none ∧
    decode Params.default 0x30100000#32 = none ∧ decode Params.default 0x31100000#32 = none ∧
    decode Params.default 0x01180001#32 = none := by decide

/-- The encoder writes the words of the rules' examples. -/
theorem test_encode :
    encode (.cfgw (.pps 1) 2#16) = 0x01180002#32 ∧ encode (.wr 1 1#16) = 0x14010001#32 ∧
    encode (.encu 1) = 0x31100000#32 ∧ encode (.rd 6) = 0x11060000#32 := by decide

/-- 30_encoding.md R92: the assembler forms (`ADDR(16, 2, 0)` and `INCSRC(1, 1, 5)` of 95_test_vectors.md). -/
theorem test_assembler_forms :
    asmAddr 16 2 0 = 0x0110 ∧ asmIncsrc 1 1 5 = 0x17 ∧ asmTick small = [.sru, .selu, .encu 0, .encu 1] := by decide

/-- 30_encoding.md R91. -/
theorem test_text :
    Instr.text (.cfgw (.pps 0) 4#16) = "CFGW PPS[0], 4" ∧ Instr.text (.wr 1 1#16) = "WR 1, 1" ∧ Instr.text (.rd 3) = "RD 3" := by
  decide

/-- The host's two functions, on a row of the table: the decoder's answer, and the step that runs it. -/
theorem test_table_word :
    decodeTableWord 32 0x01000000 = some (.cfgw .nset 0#16) ∧
    step (State.reset.withFetchWord 32 0x01000000) = exec (.cfgw .nset 0#16) State.reset := ⟨by decide, rfl⟩

/-! ## One step of every command -/

/-- 40_config.md R101 example. -/
theorem test_cfgw_pps :
    gives (exec (.cfgw (.pps 0) 4#16) State.reset) (fun t => t.resp == 0#32 && t.elems.map Elem.pps == [4#16]) = true := by
  decide

/-- V39j: refused in RUN. -/
theorem test_cfgw_in_run :
    gives (exec (.cfgw .nset 2#16) running) (fun t => t.resp == 0x90000000#32 && t.nset == 4#8) = true := by decide

/-- V25c. -/
theorem test_init_constructs :
    gives (exec .init (configured 1 1 4 3 0)) (fun t =>
      t.resp == 0#32 && t.phase == .run && t.cur == 3#8 && t.plv) = true := by decide

/-- V28c: code 3 wins over code 4. -/
theorem test_init_rejects :
    gives (exec .init (configured 1 0 4 4 0)) (fun t =>
      t.resp == 0x30000000#32 && t.phase == .rejected && t.err == some .outOfRangeSetting && t.cur == 0#8) = true := by decide

/-- V20c and P1 command 16. -/
theorem test_stat :
    gives (exec .stat rejected) (fun t => t.resp == 0x00000006#32) = true ∧
    gives (exec .stat snapped) (fun t => t.resp == 0x00000041#32) = true := by decide

/-- V60. -/
theorem test_sru_first_sample_is_bit_0 :
    gives (exec .sru { running with dataIn := [true, false, true, true, false, false, true, false] }) (fun t =>
      t.resp == 0x0000004D#32 && t.buf == 0x4D#8 && t.pt.length == 20 && t.loadN && t.ceN && !t.clk) = true := by decide

/-- V66: no bit of the snapshot before survives. -/
theorem test_sru_replaces_the_snapshot :
    gives (exec .sru { running with
      params := small, buf := 0xE#8, shr := 0xE#8, dataIn := [true, false, false, false] }) (fun t =>
      t.resp == 0x00000001#32 && t.pt.length == 12) = true := by decide

/-- V68a, V68b. -/
theorem test_rd :
    gives (exec (.rd 0) snapped) (fun t => t.resp == 0x00000001#32) = true ∧
    gives (exec (.rd 1) snapped) (fun t => t.resp == 0x00000000#32) = true := by decide

/-- V68i, V68f. -/
theorem test_rdb :
    gives (exec (.rdb 3) snapped) (fun t => t.resp == 0x00000001#32) = true ∧
    gives (exec (.rdb 5) snapped) (fun t => t.resp == 0x00000000#32) = true := by decide

/-- V68. -/
theorem test_ard : gives (exec (.ard 0) snapped) (fun t => t.resp == 0#32) = true := by decide

/-- V70. -/
theorem test_wr : gives (exec (.wr 1 1#16) snapped) (fun t => t.resp == 0#32 && t.buf == 0x4D#8) = true := by decide

/-- V71. -/
theorem test_awr :
    gives (exec (.awr 7 0x00FF#16) snapped) (fun t => t.resp == 0#32 && t.buf == 0x4D#8 && t.pt == []) = true := by decide

/-- V40, first press: the setting wraps. -/
theorem test_selu_wraps :
    gives (exec .selu { running with incIn := [false] }) (fun t => t.resp == 0x00000001#32 && t.cur == 0#8 && !t.plv) = true := by
  decide

/-- V56: the button is line 5 of the snapshot, active high. -/
theorem test_selu_buffered_line :
    gives (exec .selu { running with cur := 0#8, inccfg := 0x17#5, plv := false, buf := 0x20#8, shr := 0x20#8 }) (fun t =>
      t.resp == 0x00000101#32 && t.cur == 1#8 && t.plv) = true := by decide

/-- V50, the clamp, and V53, near the top. -/
theorem test_incr :
    gives (exec .incr { running with wrap := false }) (fun t => t.resp == 0x00000003#32) = true ∧
    gives (exec .incr { running with nset := 255#8, cur := 253#8, wrap := false }) (fun t => t.resp == 0x000000FE#32) = true := by
  decide

/-- 43_selector.md R158 example. -/
theorem test_selr : gives (exec .selr running) (fun t => t.resp == 0x00000003#32) = true := by decide

/-- V36. -/
theorem test_rslv : gives (exec (.rslv 0) { running with cur := 2#8 }) (fun t => t.resp == 0x00000020#32) = true := by decide

/-- V39a, V39m, V39o: the two values of ADDR_OVF. -/
theorem test_resolve_overflow :
    resolve .saturate 2#8 0x0078#15 0x0004#15 = 0x007F#15 ∧ resolve .truncate 2#8 0x0078#15 0x0004#15 = 0x0000#15 ∧
    resolve .saturate 1#8 0x7F0A#15 0x0880#15 = 0x7F8A#15 ∧ resolve .truncate 1#8 0x7F0A#15 0x0880#15 = 0x078A#15 ∧
    resolve .saturate 254#8 0x7FFF#15 0x7FFF#15 = 0x7FFF#15 ∧ resolve .truncate 254#8 0x7FFF#15 0x7FFF#15 = 0x0881#15 := by
  decide

/-- V39a on two instances that differ in ADDR_OVF alone. -/
theorem test_rslv_by_instance :
    gives (exec (.rslv 0) { running with
      params := { built 8 1 32 with addrOvf := .saturate }, cur := 2#8
      elems := [{ elem 4 1 0 with base := 0x0078#15, ofs := 4#15 }] }) (fun t => t.resp == 0x0000007F#32) = true ∧
    gives (exec (.rslv 0) { running with
      params := { built 8 1 32 with addrOvf := .truncate }, cur := 2#8
      elems := [{ elem 4 1 0 with base := 0x0078#15, ofs := 4#15 }] }) (fun t => t.resp == 0x00000000#32) = true := by decide

/-- Phase 4 of the micro-step view of V67 on two instances that differ in SAMPLE_POINT alone. -/
theorem test_sequencer_by_instance :
    gives (step { running with
      params := { built 1 1 32 with samplePoint := .beforeRise }, ph := 4#6, ceN := false, dataIn := [true] })
      (fun t => t.shr == 1#8 && !t.clk && t.ph == 5#6) = true ∧
    gives (step { running with
      params := { built 1 1 32 with samplePoint := .whileHigh }, ph := 4#6, ceN := false, dataIn := [true] })
      (fun t => t.shr == 0#8 && t.clk && t.ph == 5#6) = true := by decide

/-- V24: the division truncates toward zero and the delta keeps its sign. -/
theorem test_encu_negative :
    gives (exec (.encu 0) (turned 32 4 3 0 (-9))) (fun t =>
      t.resp == 0x00000001#32 && t.ev == [{ delta := -6, addr := 0x0010#15 }] && t.elems.map Elem.prev == [-8]) = true := by
  decide

/-- V33: the position counter wraps. -/
theorem test_encu_wraps :
    gives (exec (.encu 0) (turned 8 4 1 126 0x82)) (fun t =>
      t.resp == 0x00000001#32 && t.ev == [{ delta := 1, addr := 0x0010#15 }] && t.elems.map Elem.prev == [-126]) = true := by
  decide

/-- V39d: IllegalCommand comes before WrongPhase. -/
theorem test_illegal_before_wrong_phase :
    gives (step (State.reset.withFetchWord 32 0x31900000)) (fun t => t.resp == 0x80000000#32) = true := by decide

/-- The last row of the phase table of V67, and a reset inside an SRU (70_reset_and_hazards.md R231). -/
theorem test_sequencer :
    gives (microStep .beforeRise { running with
      params := built 1 1 32, shr := 1#8, ph := 7#6, ceN := false }) (fun t =>
      t.resp == 0x00000001#32 && t.buf == 1#8 && t.snap && t.ph == 0#6 && t.ceN) = true ∧
    gives (step { running with ph := 5#6, clk := true, ceN := false, port := [.reset] }) (fun t =>
      t.ph == 0#6 && !t.clk && t.ceN && t.phase == .config && t.pt == []) = true := by decide

/-! ## States and operands that meet the hypotheses of the statements -/

/-- A running block is a good state. -/
theorem running_good : Inv running where
  params_wf := Params.default_wf
  elems_length := by decide
  buf_lt := by decide
  shr_lt := by decide
  prev_range := by decide
  ph_le := by decide
  busy_run := by decide
  pins := ⟨by decide, by decide, by simp [running, State.reset, State.resetOf]⟩
  idle_shr := by decide
  unsnapped := by decide
  err_rejected := by decide
  quiet := by decide
  run_ok := fun _ => ⟨by decide, by decide, by decide, by decide⟩
  deltas := by decide
  ev_idle := by decide

/-- A block at the issue of an SRU is a good state. -/
theorem busy_good : Inv running.startSequencer where
  params_wf := Params.default_wf
  elems_length := by decide
  buf_lt := by decide
  shr_lt := by decide
  prev_range := by decide
  ph_le := by decide
  busy_run := by decide
  pins := ⟨by decide, by decide, by simp [running, State.startSequencer, State.setPh, State.reset, State.resetOf]⟩
  idle_shr := by decide
  unsnapped := by decide
  err_rejected := by decide
  quiet := by decide
  run_ok := fun _ => ⟨by decide, by decide, by decide, by decide⟩
  deltas := by decide
  ev_idle := by decide

/-- A running block whose host issues three `ENCU 0`. -/
def polled (zs : List Int) : State :=
  { running with port := List.replicate zs.length (.command (encode (.encu 0))), posIn := zs }

theorem polled_good (zs : List Int) : Inv (polled zs) :=
  { running_good with run_ok := fun h => ⟨(running_good.run_ok h).1, (running_good.run_ok h).2, (running_good.run_ok h).3,
      (running_good.run_ok h).4⟩, pins := ⟨running_good.pins.1, running_good.pins.2, running_good.pins.3⟩ }

theorem witness_EncodeThenDecodeGivesTheCommand :
    Instr.wf small (.cfgw (.ofs 1) 0x7FFF#16) = true ∧ Instr.wf small (.rd 3) = true ∧ Instr.wf small (.awr 7 0xFFFF#16) = true ∧
    Instr.wf small (.encu 1) = true ∧ Instr.wf small .init = true := by decide

theorem witness_DecodeThenEncodeGivesTheWord : decode small 0x31100000#32 = some (.encu 1) := by decide

theorem witness_DecodeFollowsTheOpcodeMap :
    0x31100000#32 &&& Opcode.encu.mask = Opcode.encu.pattern ∧ operands 0x31100000#32 .encu = some (.encu 1) := by decide

theorem witness_StepRunsTheDecodedCommand :
    let s := { running with port := [.command 0x31000000#32] }
    s.ph = 0#6 ∧ decode s.params 0x31000000#32 = some (.encu 0) := by decide

theorem witness_IllegalWordIsRefused :
    let s := { running with port := [.command 0x11000001#32] }
    s.ph = 0#6 ∧ decode s.params 0x11000001#32 = none := by decide

theorem witness_PhaseTableIsObeyed :
    (Instr.wf running.params .sru = true ∧ performedIn .sru running.phase = true ∧ Inv running) ∧
    (Instr.wf State.reset.params .sru = true ∧ performedIn .sru State.reset.phase = false) ∧
    (Instr.wf running.params (.cfgw .wrap 1#16) = true ∧ performedIn (.cfgw .wrap 1#16) running.phase = false) :=
  ⟨⟨by decide, by decide, running_good⟩, by decide, by decide⟩

theorem witness_EveryCommandGivesOneResponse :
    let s := { running with port := [.command 0x10000000#32], dataIn := [true, true, true, true, true, true, true, true] }
    s.ph = 0#6 ∧ completes (step s) = true := by decide

/-- The first phase, and the last one. -/
theorem witness_BusyPortHoldsTheCommand :
    (let s := { running with ph := 1#6, port := [.command 0x03000000#32] }
     s.ph ≠ 0#6 ∧ s.ph.toNat < 4 + 3 * s.params.n) ∧
    (let s := { running with ph := 28#6, port := [.command 0x03000000#32] }
     s.ph ≠ 0#6 ∧ s.ph.toNat = 4 + 3 * s.params.n) := by decide

theorem witness_ResetGivesTheResetValues :
    { running with ph := 5#6, port := [.reset] }.port = .reset :: [] := by decide

/-- The smallest instance and the largest. -/
theorem witness_AfterResetOnlyConstruction :
    Params.wf (built 1 1 2) ∧ Params.wf (built 8 16 64) ∧
    Instr.wf Params.default (.cfgw .nset 255#16) = true ∧
    Instr.wf Params.default .selu = true ∧ performedIn .selu .config = false := by decide

theorem witness_CfgwWritesOneRegister :
    (State.reset.phase = .config ∧ (255#16).toNat < 256 ∧ (1#16).toNat < 2 ∧ (31#16).toNat < 32 ∧
      (0x7FFF#16).toNat < 32768 ∧ (0 : Elt).val < State.reset.params.nenc ∧
      State.reset.elems[(0 : Elt).val]? = some Elem.reset) ∧
    (Instr.wf running.params (.cfgw .nset 255#16) = true ∧ running.phase ≠ .config) ∧
    Instr.wf running.params (.cfgw .nset 256#16) = false := by decide

/-- For each clause a block that meets exactly its conditions. -/
theorem witness_InitConstructsOrRejects :
    (let s := configured 1 1 4 3 0x0E#5
     s.phase = .config ∧ ¬ zeroQuantum s ∧ ¬ zeroSettings s ∧ ¬ settingTooLarge s ∧ ¬ zeroMultiplier s ∧ ¬ lineTooLarge s) ∧
    (let s := configured 0 0 0 0 0x1E#5
     s.phase = .config ∧ zeroQuantum s) ∧
    (let s := configured 1 0 0 0 0x1E#5
     ¬ zeroQuantum s ∧ zeroSettings s) ∧
    (let s := configured 1 0 4 4 0x1E#5
     ¬ zeroQuantum s ∧ ¬ zeroSettings s ∧ settingTooLarge s) ∧
    (let s := configured 1 0 4 3 0x1E#5
     ¬ zeroQuantum s ∧ ¬ zeroSettings s ∧ ¬ settingTooLarge s ∧ zeroMultiplier s) ∧
    (let s := configured 1 1 4 3 0x12#5
     ¬ zeroQuantum s ∧ ¬ zeroSettings s ∧ ¬ settingTooLarge s ∧ ¬ zeroMultiplier s ∧ lineTooLarge s) ∧
    running.phase ≠ .config := by
  refine ⟨?_, ?_, ?_, ?_, ?_, ?_, by decide⟩ <;>
    simp [configured, elem, zeroQuantum, zeroSettings, settingTooLarge, zeroMultiplier, lineTooLarge, State.resetOf, incSrc,
      incLine, built]

theorem witness_OnlyInitAndResetChangeThePhase :
    (let s := { running with port := [.command 0x03000000#32] }
     completes (step s) = true ∧ s.port.head? ≠ some .reset ∧ s.phase = .run) ∧
    (let s := { rejected with port := [.command 0x02000000#32] }
     completes (step s) = true ∧ s.port.head? ≠ some .reset ∧ s.phase = .rejected) ∧
    (let s := { configured 1 1 4 3 0 with port := [.command 0x02000000#32] }
     gives (step s) (fun t => decide (t.phase ≠ .config)) = true ∧ s.port.head? ≠ some .reset ∧ s.phase = .config) := by decide

theorem witness_ConfigurationIsImmutableAfterInit :
    let s := { running with port := [.command 0x01000002#32] }
    s.phase ≠ .config ∧ completes (step s) = true ∧ s.port.head? ≠ some .reset := by decide

/-- An emitting update, a silent one, and one with no listed position. -/
theorem witness_EncuTranslates :
    (let s := turned 32 4 3 0 (-9)
     (0 : Elt).val < s.params.nenc ∧ s.phase = .run ∧ s.elems[(0 : Elt).val]? = some (elem 4 3 0) ∧
     (elem 4 3 0).pps ≠ 0#16 ∧ s.posIn = (-9) :: [] ∧ ((((-9 : Int).bmod (2 ^ 32)) - 0).bmod (2 ^ 32)).tdiv 4 ≠ 0) ∧
    (let s := turned 32 4 1 0 3
     s.posIn = 3 :: [] ∧ ((((3 : Int).bmod (2 ^ 32)) - 0).bmod (2 ^ 32)).tdiv 4 = 0) ∧
    running.posIn = [] := by decide

theorem witness_SubStepMovementIsSilent :
    let s := turned 8 4 1 126 (-127)
    (0 : Elt).val < s.params.nenc ∧ s.phase = .run ∧ s.elems[(0 : Elt).val]? = some (elem 4 1 126) ∧
    s.posIn = (-127) :: [] ∧
    (((-127 : Int).bmod (2 ^ s.params.posW) - (elem 4 1 126).prev).bmod (2 ^ s.params.posW)).natAbs <
      (elem 4 1 126).pps.toNat := by decide

theorem witness_RemainderStaysBelowOneStep :
    let s := turned 8 4 1 126 (-126)
    (0 : Elt).val < s.params.nenc ∧ s.phase = .run ∧ s.elems[(0 : Elt).val]? = some (elem 4 1 126) ∧
    (elem 4 1 126).pps ≠ 0#16 ∧ s.posIn = (-126) :: [] ∧ 2 ≤ s.params.posW ∧ completes (exec (.encu 0) s) = true := by decide

/-- The largest delta of an 8-bit position, V34. -/
theorem witness_DeltaIsNonzeroExactAndSigned :
    let s := turned 8 1 65535 0 (-128)
    (0 : Elt).val < s.params.nenc ∧ s.phase = .run ∧ s.elems[(0 : Elt).val]? = some (elem 1 65535 0) ∧
    (elem 1 65535 0).pps ≠ 0#16 ∧ (elem 1 65535 0).mul ≠ 0#16 ∧ 2 ≤ s.params.posW ∧ s.posIn = (-128) :: [] ∧
    gives (exec (.encu 0) s) (fun t => t.ev == [{ delta := -8388480, addr := 0x0010#15 }]) = true := by decide

/-- X7, from the lowest position to the highest. -/
theorem witness_RisingPositionNeverGoesBack :
    let zs : List Int := [0, 4, 5, 9, 2147483647]
    Inv (polled zs) ∧ (polled zs).phase = .run ∧ (polled zs).ph = 0#6 ∧ (0 : Elt).val < (polled zs).params.nenc ∧
    (∃ el, (polled zs).elems[(0 : Elt).val]? = some el ∧ el.prev = 0) ∧
    zs.Pairwise (· ≤ ·) ∧ ∀ z ∈ zs, 0 ≤ z ∧ z < 2 ^ ((polled zs).params.posW - 1) :=
  ⟨polled_good _, by decide, by decide, by decide, ⟨_, rfl, rfl⟩, by decide, by decide⟩

/-- X3, down to the lowest position. -/
theorem witness_FallingPositionNeverGoesForward :
    let zs : List Int := [0, -7, -7, -8, -2147483648]
    Inv (polled zs) ∧ (polled zs).phase = .run ∧ (polled zs).ph = 0#6 ∧ (0 : Elt).val < (polled zs).params.nenc ∧
    (∃ el, (polled zs).elems[(0 : Elt).val]? = some el ∧ el.prev = 0) ∧
    zs.Pairwise (· ≥ ·) ∧ ∀ z ∈ zs, -(2 ^ ((polled zs).params.posW - 1) : Int) ≤ z ∧ z ≤ 0 :=
  ⟨polled_good _, by decide, by decide, by decide, ⟨_, rfl, rfl⟩, by decide, by decide⟩

/-- Forward from the lowest position by the largest distance, and back from the highest: the samples wrap for none of them. -/
theorem witness_PrevNeverPassesTheSample :
    (let s := turned 8 4 1 (-128) (-1)
     (0 : Elt).val < s.params.nenc ∧ s.phase = .run ∧ s.elems[(0 : Elt).val]? = some (elem 4 1 (-128)) ∧
     (elem 4 1 (-128)).pps ≠ 0#16 ∧ (elem 4 1 (-128)).mul ≠ 0#16 ∧ 2 ≤ s.params.posW ∧
     -(2 ^ (s.params.posW - 1) : Int) ≤ -128 ∧ s.posIn = (-1) :: [] ∧
     (-128 : Int) ≤ (-1 : Int).bmod (2 ^ s.params.posW) ∧
     (-1 : Int).bmod (2 ^ s.params.posW) - (-128) < 2 ^ (s.params.posW - 1)) ∧
    (let s := turned 8 4 1 127 (-1)
     s.elems[(0 : Elt).val]? = some (elem 4 1 127) ∧ (127 : Int) < 2 ^ (s.params.posW - 1) ∧ s.posIn = (-1) :: [] ∧
     (-1 : Int).bmod (2 ^ s.params.posW) ≤ 127 ∧
     127 - (-1 : Int).bmod (2 ^ s.params.posW) ≤ 2 ^ (s.params.posW - 1)) := by decide

theorem witness_RslvAnswersTheFieldSums :
    (0 : Elt).val < running.params.nenc ∧ running.phase = .run ∧
    running.elems[(0 : Elt).val]? = some { prev := 0, pps := 4#16, mul := 1#16, base := 0x0010#15, ofs := 8#15 } := by decide

theorem witness_ResolveIsPlainAdditionUnderAddrOk :
    Inv running ∧ running.phase = .run ∧ addrOk running ∧
    { prev := 0, pps := 4#16, mul := 1#16, base := 0x0010#15, ofs := 8#15 } ∈ running.elems :=
  ⟨running_good, by decide, by simp [addrOk, running, numberOf, channelOf, cableOf], by decide⟩

theorem witness_UnmovedElementAnswersItsBase :
    { running with cur := 0#8 }.cur = 0#8 ∧ { running with cur := 0#8 }.phase = .run ∧
    (turned 32 4 1 0 0).elems[(0 : Elt).val]? = some (elem 4 1 0) ∧ (elem 4 1 0).ofs = 0#15 := by decide

/-- A press on the pin, a press on a buffered line, a held button, and no listed level. -/
theorem witness_SeluUpdatesTheSelector :
    (let s := { running with incIn := [false] }
     s.phase = .run ∧ incSrc s.inccfg = false ∧ s.incIn = false :: [] ∧ false = s.inccfg.getLsbD 0 ∧
     s.plv ≠ s.inccfg.getLsbD 0 ∧ s.cur.toNat + 1 = s.nset.toNat ∧ s.wrap = true) ∧
    (let s := { running with inccfg := 0x1F#5, plv := false, buf := 0x80#8, shr := 0x80#8, cur := 2#8 }
     s.phase = .run ∧ incSrc s.inccfg = true ∧ incLine s.inccfg < s.params.n ∧ true = s.buf.getLsbD (incLine s.inccfg) ∧
     true = s.inccfg.getLsbD 0 ∧ s.plv ≠ s.inccfg.getLsbD 0 ∧ s.cur.toNat + 1 ≠ s.nset.toNat) ∧
    (let s := { running with incIn := [false], plv := false }
     s.incIn = false :: [] ∧ ¬ (false = s.inccfg.getLsbD 0 ∧ s.plv ≠ s.inccfg.getLsbD 0)) ∧
    (let s := { running with incIn := [false], wrap := false }
     s.cur.toNat + 1 = s.nset.toNat ∧ s.wrap = false) ∧
    (incSrc running.inccfg = false ∧ running.incIn = []) := by decide

theorem witness_IncrStepsWrapsOrClamps :
    (let s := { running with cur := 2#8 }
     s.phase = .run ∧ s.cur.toNat + 1 < s.nset.toNat) ∧
    (running.phase = .run ∧ running.cur.toNat + 1 = running.nset.toNat ∧ running.wrap = true) ∧
    (let s := { running with wrap := false }
     s.phase = .run ∧ s.cur.toNat + 1 = s.nset.toNat ∧ s.wrap = false) ∧
    rejected.phase ≠ .run := by decide

theorem witness_SelrAnswersTheSetting : running.phase = .run ∧ State.reset.phase ≠ .run := by decide

theorem witness_OnlyIncrementMovesTheSetting :
    Det.reserved2 ≠ .increment ∧ Det.reserved3 ≠ .increment ∧ Det.none ≠ .increment ∧
    running.cur.toNat < running.nset.toNat := by decide

theorem witness_OnePressIsOneIncrement :
    (let s := { running with plv := false, incIn := [false] }
     s.phase = .run ∧ s.plv = s.inccfg.getLsbD 0 ∧ completes (exec .selu s) = true) ∧
    (let s := { configured 1 1 4 3 0 with incIn := [false] }
     s.phase = .config ∧ gives (exec .init s) (fun t => t.phase == .run) = true ∧ incSrc s.inccfg = false ∧
     s.incIn = s.inccfg.getLsbD 0 :: []) ∧
    (let s := { running with incIn := [false, false] }
     s.phase = .run ∧ gives (exec .selu s) (fun t =>
       t.resp.extractLsb' 0 2 == 1#2 && completes (exec .selu t)) = true) := by decide

/-- Eight lines, and one. -/
theorem witness_SruTakesASnapshot :
    (running.phase = .run ∧ running.params.n ≤ 8 ∧ running.shr.toNat < 2 ^ running.params.n ∧ 1 ≤ running.params.n) ∧
    (let s := { running with params := built 1 1 32 }
     s.phase = .run ∧ s.params.n ≤ 8 ∧ s.shr.toNat < 2 ^ s.params.n ∧ 1 ≤ s.params.n) := by decide

theorem witness_SmallStepsComposeToSru : running.phase = .run ∧ running.params.n ≤ 8 := by decide

/-- The first bit and the last bit of eight, with a level to sample, and the last row. -/
theorem witness_PhaseTableRows :
    running.params.n ≤ 8 ∧ { running with ph := 3#6 }.ph = 3#6 ∧
    (let s := { running with ph := 4#6, dataIn := [true] }
     s.ph.toNat = 4 + 3 * 0 ∧ s.dataIn = true :: []) ∧
    (let s := { running with ph := 26#6, dataIn := [true] }
     s.ph.toNat = 5 + 3 * 7 ∧ 7 < s.params.n ∧ s.dataIn = true :: []) ∧
    { running with ph := 27#6 }.ph.toNat = 6 + 3 * 7 ∧
    { running with ph := 28#6 }.ph.toNat = 4 + 3 * running.params.n := by decide

theorem witness_ReadsAnswerTheBufferedLine :
    ((7 : Line).val < running.params.n ∧ running.phase = .run) ∧
    ((7 : Line).val < State.reset.params.n ∧ State.reset.phase ≠ .run) ∧
    (let s := { running with params := small }
     s.params.n ≤ (4 : Line).val) := by decide

theorem witness_UnsupportedOperationsAnswerZero : running.phase = .run ∧ rejected.phase ≠ .run := by decide

theorem witness_PinTraceIsWholeSequences :
    let s := { running with port := [.command 0x10000000#32], dataIn := [true, true, true, true, true, true, true, true] }
    s.ph = 0#6 ∧ wholeSequences s ∧ completes (step s) = true :=
  ⟨by decide, ⟨0, rfl⟩, by decide⟩

theorem witness_SnapshotStandsBetweenSrus :
    let s := { snapped with port := [.command 0x11000000#32, .command 0x21000000#32] }
    s.ph = 0#6 ∧ (∀ x ∈ s.port, x ≠ .reset ∧ x ≠ .command 0x10000000#32) ∧
    completes (Host.Core.run core 2 s) = true := by decide

/-- Every command completes from this state, in a phase that performs it. -/
theorem witness_CommandsLeaveTheRestUnchanged :
    (∀ i ∈ [Instr.stat, .sru, .rd 0, .rdb 0, .ard 0, .wr 0 1#16, .awr 0 1#16, .selu, .incr, .selr, .rslv 0, .encu 0],
      performedIn i running.phase = true ∧ completes (exec i
        { running with
          dataIn := [true, true, true, true, true, true, true, true], incIn := [false], posIn := [5] }) = true) ∧
    completes (exec .init (configured 1 1 4 3 0)) = true ∧ completes (exec (.cfgw .nset 4#16) State.reset) = true := by decide

theorem witness_ResetIsAGoodState : Params.wf Params.default ∧ Params.wf (built 1 16 64) :=
  ⟨Params.default_wf, by decide⟩

theorem witness_GoodStatesStepToGoodStates : Inv running ∧ Inv running.startSequencer := ⟨running_good, busy_good⟩

/-- The states of the four faults. -/
theorem witness_CommandsStopOnlyInImpossibleStates :
    (let s := turned 32 0 1 0 0
     (0 : Elt).val < s.params.nenc ∧ s.phase = .run ∧ s.elems[(0 : Elt).val]? = some (elem 0 1 0) ∧ (elem 0 1 0).pps = 0#16) ∧
    (let s := { running with params := small, inccfg := 0x12#5 }
     s.phase = .run ∧ incSrc s.inccfg = true ∧ s.params.n ≤ incLine s.inccfg) ∧
    (let s := { running with elems := [] }
     (0 : Elt).val < s.params.nenc ∧ s.phase = .run ∧ s.elems.length ≤ (0 : Elt).val) ∧
    (let s := { State.reset with elems := [] }
     (0 : Elt).val < s.params.nenc ∧ s.phase = .config ∧ s.elems.length ≤ (0 : Elt).val) := by decide

theorem witness_OperandsOutOfRangeAreRefused : Instr.wf running.params (.encu 1) = false := by decide

theorem witness_ParametersAreFixed : completes (step { running with port := [.command 0x22000000#32] }) = true := by decide

end Sys2Proof.Tests
end

section
/-! The parameters of an instance under every step (00_scope.md R5, 10_state.md R48). -/

namespace Sys2Proof.Machine

/-! The compound updates keep the parameters. -/

@[simp] theorem State.raise_params (s : State) (x : Exc) : (s.raise x).params = s.params := by cases x <;> rfl

@[simp] theorem State.sampleBit_params (s : State) (i : Nat) : (s.sampleBit i).params = s.params := by
  simp [State.sampleBit_eq]

@[simp] theorem State.bitRow_params (s : State) (sp : SamplePoint) (i r : Nat) : (s.bitRow sp i r).params = s.params := by
  match r, sp with
  | 0, .beforeRise => exact s.sampleBit_params i
  | 0, .whileHigh => exact s.drive_params .clk true
  | 1, .beforeRise => exact s.drive_params .clk true
  | 1, .whileHigh => exact s.sampleBit_params i
  | _ + 2, _ => exact s.drive_params .clk false

@[simp] theorem State.nextPhase_params (s : State) : s.nextPhase.params = s.params := rfl

@[simp] theorem State.lastPhase_params (s : State) : s.lastPhase.params = s.params := rfl

@[simp] theorem State.applyDet_params (s : State) (d : Det) : (s.applyDet d).params = s.params := by cases d <;> rfl

@[simp] theorem State.selectorUpdate_params (s : State) (lvl : Bool) : (s.selectorUpdate lvl).params = s.params := by
  simp [State.selectorUpdate]

@[simp] theorem State.translate_params (s : State) (e : Elt) (el : Elem) (q : Int) :
    (s.translate e el q).params = s.params := by
  unfold State.translate
  split <;> simp

@[simp] theorem State.takeSnapshot_params (s : State) : s.takeSnapshot.params = s.params := by
  rw [Laws.takeSnapshot_eq]
  rfl

end Sys2Proof.Machine

namespace Sys2Proof.Laws

open Sys2Proof Sys2Proof.Machine Sys2Proof.Safety

theorem writeReg?_params {s s' : State} {reg : CfgReg} {v : Half} (h : s.writeReg? reg v = some s') :
    s'.params = s.params := by
  obtain ⟨_, _, _, _, rfl⟩ | ⟨_, _, _, _, _, rfl⟩ := writeReg?_cases h <;> rfl

theorem Effect.params_eq {i : Instr} {s t : State} (h : Effect i s t) : t.params = s.params := by
  cases h
  case cfgw hw => simpa using writeReg?_params hw
  all_goals simp

/-- A command that completes keeps the parameters, whether it is refused or performed. -/
theorem exec_params {i : Instr} {s t : State} (h : exec i s = .next t) : t.params = s.params := by
  obtain rfl | rfl | he := exec_next h
  · simp
  · simp
  · exact he.params_eq

/-- A micro-operation that completes keeps the parameters, in every row of the phase table. -/
theorem microStep_params {sp : SamplePoint} {s t : State} (h : microStep sp s = .next t) : t.params = s.params := by
  obtain ⟨_, e⟩ | ⟨_, e⟩ | ⟨_, e⟩ | ⟨_, e⟩ | ⟨i, r, _, _, _, e⟩ | ⟨_, e⟩ | ⟨_, e⟩ := microStep_cases sp s
  all_goals
    rw [e] at h
    cases h
  case inl => rfl
  all_goals simp

/-- Every kind of step keeps the parameters; a reset does because it resets to the same instance. -/
theorem step_params {s t : State} (h : step s = .next t) : t.params = s.params := by
  obtain ⟨rest, _, e⟩ | ⟨_, _, e⟩ | ⟨_, rest, i, _, _, _, e⟩ | ⟨_, rest, _, _, _, e⟩ | ⟨_, _, e⟩ := step_cases s
  all_goals rw [e] at h
  · cases h
    exact s.takeReset_params rest
  · exact (microStep_params h).trans s.strobesLow_params
  · exact (exec_params h).trans (s.accept_params rest)
  · cases h
    simp
  · cases h
    exact s.strobesLow_params

/-- Settles O44, by the cases of a step: a reset, a micro-operation, a command, an illegal word, an idle turn. -/
theorem parametersAreFixed : Obligations.ParametersAreFixed := fun _ _ => step_params

end Sys2Proof.Laws
end

section
/-! Reset (10_state.md R47, 70_reset_and_hazards.md R230, R231): the step that takes it, and the state it gives. -/

namespace Sys2Proof.Laws

open Sys2Proof Sys2Proof.Machine Sys2Proof.Safety

/-- `rst` is taken at once, also while the sequencer is busy (70_reset_and_hazards.md R231). -/
theorem step_reset {s : State} {rest : List PortInput} (h : s.port = .reset :: rest) :
    step s = .next (s.takeReset rest) := by
  simp [step, State.turn, h]

/-- Settles O11: the step takes the reset, and each element of the state it gives is a literal of `State.resetOf`. -/
theorem resetGivesTheResetValues : Obligations.ResetGivesTheResetValues := by
  intro s rest h
  refine ⟨s.takeReset rest, step_reset h, ?_⟩
  and_intros <;> rfl

/-- The pins at reset are the levels of an idle sequencer (44_shiftreg.md R178). -/
theorem resetOf_pinsOk (sp : SamplePoint) (p : Params) : PinsOk sp (State.resetOf p) where
  loadN_eq := rfl
  ceN_eq := rfl
  clk_eq := rfl

/-- Settles O40, clause by clause of `Inv`: the registers are 0, the phase is CONFIG and the traces are empty. -/
theorem resetIsAGoodState : Obligations.ResetIsAGoodState := fun p hp =>
  { params_wf := hp
    elems_length := List.length_replicate
    buf_lt := Nat.two_pow_pos p.n
    shr_lt := Nat.two_pow_pos p.n
    prev_range := by
      intro el hel
      obtain rfl := List.eq_of_mem_replicate hel
      have hpos : (0 : Int) < 2 ^ (p.posW - 1) := by positivity
      exact ⟨neg_nonpos.mpr hpos.le, hpos⟩
    ph_le := Nat.zero_le _
    busy_run := fun h => absurd rfl h
    pins := resetOf_pinsOk _ p
    idle_shr := fun _ => rfl
    unsnapped := fun _ => rfl
    err_rejected := by simp [State.resetOf]
    quiet := fun _ => ⟨rfl, rfl, rfl⟩
    run_ok := nofun
    deltas := nofun
    ev_idle := rfl }

end Sys2Proof.Laws
end

section
/-! What each command writes before its response (the "State written" lines of the command rules), and from it the frame. -/

namespace Sys2Proof.Machine

/-- A sample of `inc_raw` uses up one draw and changes nothing else (10_state.md R32). -/
theorem State.incTaken_eq (s : State) :
    s.incTaken = { s with incIn := s.incIn.drop 1, draws := s.draws + (1 - s.incIn.length) } := by
  obtain h | ⟨d, ds, h⟩ : s.incIn = [] ∨ ∃ d ds, s.incIn = d :: ds := by cases s.incIn <;> simp
  all_goals simp [State.incTaken, h]

/-- A sample of a position uses up one draw and changes nothing else (10_state.md R31). -/
theorem State.posTaken_eq (s : State) :
    s.posTaken = { s with posIn := s.posIn.drop 1, draws := s.draws + (1 - s.posIn.length) } := by
  obtain h | ⟨z, zs, h⟩ : s.posIn = [] ∨ ∃ z zs, s.posIn = z :: zs := by cases s.posIn <;> simp
  all_goals simp [State.posTaken, h]

end Sys2Proof.Machine

namespace Sys2Proof.Laws

open Sys2Proof Sys2Proof.Machine Sys2Proof.Safety

/-- The selector writes CUR and PLV only, before its response (43_selector.md R151). -/
theorem selectorUpdate_eq_answered (s : State) (lvl : Bool) :
    ∃ c r, s.selectorUpdate lvl = answered { s with cur := c, plv := lvl } r := by
  simp only [State.selectorUpdate]
  rw [applyDet_eq]
  exact ⟨_, _, rfl⟩

/-- The translator writes nothing, or it appends one event and moves PREV of its element (41_encoder.md R120). -/
theorem translate_cases (s : State) (e : Elt) (el : Elem) (q : Int) :
    (∃ r, s.translate e el q = answered s r) ∨
    (∃ x z r, s.translate e el q =
      answered { s with ev := s.ev ++ [x], elems := s.elems.set e.val { el with prev := z } } r) := by
  unfold State.translate
  split
  · exact .inl ⟨_, rfl⟩
  · exact .inr ⟨_, _, _, rfl⟩

/-- `Writes i s u`: `u` differs from `s` at most in what the command `i` writes before its response. -/
inductive Writes : Instr → State → State → Prop
  /-- A refusal, or a command that only answers. -/
  | nothing {i s} : Writes i s s
  | cfgw {reg v s} (a b c d els) : s.phase = .config → els.map Elem.prev = s.elems.map Elem.prev → Writes (.cfgw reg v) s
      { s with nset := a, initset := b, wrap := c, inccfg := d, elems := els }
  | initOk {s} : Writes .init s s.construct
  | initBad {s c} : Writes .init s { s with phase := .rejected, err := some c }
  | sru {s} (b l c k pt d n) : Writes .sru s
      { s with buf := b, shr := b, snap := true, loadN := l, ceN := c, clk := k, ph := 0#6, pt := pt, dataIn := d, draws := n }
  | selu {s} (c p inc n) : Writes .selu s { s with cur := c, plv := p, incIn := inc, draws := n }
  | incr {s} : Writes .incr s s.increment
  | encuSilent {s e} (zs n) : Writes (.encu e) s { s with posIn := zs, draws := n }
  | encuEvent {s e el} (zs n x z) : s.elems[e.val]? = some el → Writes (.encu e) s
      { s with posIn := zs, draws := n, ev := s.ev ++ [x], elems := s.elems.set e.val { el with prev := z } }

theorem Effect.writes {i : Instr} {s t : State} (h : Effect i s t) : ∃ u r, Writes i s u ∧ t = answered u r := by
  cases h
  case cfgw hph hw =>
    obtain ⟨a, b, c, d, rfl⟩ | ⟨e, el, el', hel, hprev, rfl⟩ := writeReg?_cases hw
    · exact ⟨_, _, .cfgw a b c d s.elems hph rfl, rfl⟩
    · have hmap := map_set_keeps s.elems Elem.prev e.val el el' hel hprev
      exact ⟨_, _, .cfgw s.nset s.initset s.wrap s.inccfg _ hph hmap, rfl⟩
  case initOk => exact ⟨_, _, .initOk, rfl⟩
  case initBad => exact ⟨_, _, .initBad, rfl⟩
  case sru => exact ⟨_, _, .sru .., takeSnapshot_eq s⟩
  case seluPin =>
    obtain ⟨c, r, e⟩ := selectorUpdate_eq_answered s.incTaken s.incLevel
    rw [e, State.incTaken_eq]
    exact ⟨_, r, .selu .., rfl⟩
  case seluLine lvl _ _ _ =>
    obtain ⟨c, r, e⟩ := selectorUpdate_eq_answered s lvl
    exact ⟨_, r, .selu c lvl s.incIn s.draws, e⟩
  case incr => exact ⟨_, _, .incr, rfl⟩
  case encu e el _ _ _ hel =>
    obtain ⟨r, ht⟩ | ⟨x, z, r, ht⟩ := translate_cases s.posTaken e el
      (stepsMoved (positionDiff s.params.posW s.posSample el.prev) el.pps)
    · rw [ht, State.posTaken_eq]
      exact ⟨_, r, .encuSilent .., rfl⟩
    · rw [ht, State.posTaken_eq]
      exact ⟨_, r, .encuEvent _ _ x z hel, rfl⟩
  all_goals exact ⟨_, _, .nothing, rfl⟩

/-- A command that completes writes what it may write, and then answers. -/
theorem exec_writes {i : Instr} {s t : State} (h : exec i s = .next t) : ∃ u r, Writes i s u ∧ t = answered u r := by
  obtain rfl | rfl | he := exec_next h
  · exact ⟨_, _, .nothing, rfl⟩
  · exact ⟨_, _, .nothing, rfl⟩
  · exact he.writes

/-! The frame of a command's writes, one fact for each group of registers. -/

section

variable {i : Instr} {s u : State}

theorem Writes.port_eq (h : Writes i s u) : u.port = s.port := by
  cases h <;> rfl

/-- Only SRU works the shift-register reader (44_shiftreg.md R177, R180). -/
theorem Writes.reader_eq (h : Writes i s u) (hi : i ≠ .sru) :
    u.buf = s.buf ∧ u.shr = s.shr ∧ u.snap = s.snap ∧ u.loadN = s.loadN ∧ u.ceN = s.ceN ∧ u.clk = s.clk ∧
      u.ph = s.ph ∧ u.pt = s.pt ∧ u.dataIn = s.dataIn := by
  cases h
  case sru => exact absurd rfl hi
  all_goals and_intros <;> rfl

/-- Only ENCU takes a position or emits an event (41_encoder.md R126). -/
theorem Writes.ev_posIn_eq (h : Writes i s u) (hi : ∀ e, i ≠ .encu e) : u.ev = s.ev ∧ u.posIn = s.posIn := by
  cases h
  case encuSilent e _ _ => exact absurd rfl (hi e)
  case encuEvent e _ _ _ _ _ _ => exact absurd rfl (hi e)
  all_goals exact ⟨rfl, rfl⟩

theorem Writes.incIn_eq (h : Writes i s u) (hi : i ≠ .selu) : u.incIn = s.incIn := by
  cases h
  case selu => exact absurd rfl hi
  all_goals rfl

theorem Writes.cur_eq (h : Writes i s u) (h1 : i ≠ .selu) (h2 : i ≠ .incr) (h3 : i ≠ .init) : u.cur = s.cur := by
  cases h
  case selu => exact absurd rfl h1
  case incr => exact absurd rfl h2
  case initOk => exact absurd rfl h3
  all_goals rfl

theorem Writes.plv_eq (h : Writes i s u) (h1 : i ≠ .selu) (h2 : i ≠ .init) : u.plv = s.plv := by
  cases h
  case selu => exact absurd rfl h1
  case initOk => exact absurd rfl h2
  all_goals rfl

theorem Writes.phase_err_eq (h : Writes i s u) (hi : i ≠ .init) : u.phase = s.phase ∧ u.err = s.err := by
  cases h
  case initOk => exact absurd rfl hi
  case initBad => exact absurd rfl hi
  all_goals exact ⟨rfl, rfl⟩

/-- Only CFGW writes a configuration register, and only in CONFIG: INIT and ENCU write PREV alone of an element's registers. -/
theorem Writes.configOf_eq (h : Writes i s u) (hi : s.phase = .config → ∀ reg v, i ≠ .cfgw reg v) :
    configOf u = configOf s := by
  cases h
  case cfgw reg v _ _ _ _ _ hph _ => exact absurd rfl (hi hph reg v)
  case initOk => simp [configOf, Function.comp_def, elemConfig]
  case encuEvent e el _ _ x z hel =>
    have hmap : (s.elems.set e.val { el with prev := z }).map elemConfig = s.elems.map elemConfig :=
      map_set_keeps s.elems elemConfig e.val el _ hel rfl
    simp [configOf, hmap]
  all_goals rfl

/-- Only ENCU and INIT write PREV. -/
theorem Writes.prev_eq (h : Writes i s u) (he : ∀ e, i ≠ .encu e) (hi : i ≠ .init) :
    u.elems.map Elem.prev = s.elems.map Elem.prev := by
  cases h
  case cfgw hprev => exact hprev
  case initOk => exact absurd rfl hi
  case encuEvent e _ _ _ _ _ _ => exact absurd rfl (he e)
  all_goals rfl

/-- ENCU leaves the registers of every other element (10_state.md R30). -/
theorem Writes.encu_elems_ne {e : Elt} (h : Writes (.encu e) s u) {f : Nat} (hf : f ≠ e.val) :
    u.elems[f]? = s.elems[f]? := by
  cases h
  case encuEvent => exact List.getElem?_set_ne hf.symm
  all_goals rfl

end

/-- Settles O39: a completed command is its writes and a response, and each clause is a fact about its writes. -/
theorem commandsLeaveTheRestUnchanged : Obligations.CommandsLeaveTheRestUnchanged := by
  intro i s t h
  obtain ⟨u, r, hw, rfl⟩ := exec_writes h
  refine ⟨exec_params h, hw.port_eq, hw.reader_eq, hw.ev_posIn_eq, hw.incIn_eq, hw.cur_eq, hw.plv_eq, hw.phase_err_eq,
    fun hi => hw.configOf_eq fun _ => hi, hw.prev_eq, ?_⟩
  rintro e rfl f hf
  exact hw.encu_elems_ne hf

end Sys2Proof.Laws
end

section
/-! The configuration registers under every step after INIT (10_state.md R37). -/

namespace Sys2Proof.Laws

open Sys2Proof Sys2Proof.Machine Sys2Proof.Safety

@[simp] theorem configOf_respond (s : State) (status : BitVec 4) (value : Half) :
    configOf (s.respond status value) = configOf s := rfl

@[simp] theorem configOf_strobesLow (s : State) : configOf s.strobesLow = configOf s := rfl

@[simp] theorem configOf_accept (s : State) (rest : List PortInput) : configOf (s.accept rest) = configOf s := rfl

@[simp] theorem configOf_drive (s : State) (p : Pin) (l : Bool) : configOf (s.drive p l) = configOf s := by
  cases p <;> rfl

@[simp] theorem configOf_nextPhase (s : State) : configOf s.nextPhase = configOf s := rfl

@[simp] theorem configOf_lastPhase (s : State) : configOf s.lastPhase = configOf s := rfl

@[simp] theorem configOf_sampleBit (s : State) (i : Nat) : configOf (s.sampleBit i) = configOf s := by
  simp [State.sampleBit_eq, configOf]

@[simp] theorem configOf_bitRow (s : State) (sp : SamplePoint) (i r : Nat) : configOf (s.bitRow sp i r) = configOf s := by
  match r, sp with
  | 0, .beforeRise => exact configOf_sampleBit s i
  | 0, .whileHigh => exact configOf_drive s .clk true
  | 1, .beforeRise => exact configOf_drive s .clk true
  | 1, .whileHigh => exact configOf_sampleBit s i
  | _ + 2, _ => exact configOf_drive s .clk false

/-- A micro-operation that completes keeps the configuration, in every row of the phase table. -/
theorem microStep_configOf {sp : SamplePoint} {s t : State} (h : microStep sp s = .next t) : configOf t = configOf s := by
  obtain ⟨_, e⟩ | ⟨_, e⟩ | ⟨_, e⟩ | ⟨_, e⟩ | ⟨i, r, _, _, _, e⟩ | ⟨_, e⟩ | ⟨_, e⟩ := microStep_cases sp s
  all_goals
    rw [e] at h
    cases h
  case inl => rfl
  all_goals simp

/-- A command that completes outside CONFIG keeps the configuration: CFGW is refused there (40_config.md R101). -/
theorem exec_configOf {i : Instr} {s t : State} (hph : s.phase ≠ .config) (h : exec i s = .next t) :
    configOf t = configOf s := by
  obtain ⟨u, r, hw, rfl⟩ := exec_writes h
  exact hw.configOf_eq fun hc => absurd hc hph

/-- Settles O17, by the cases of a step: a reset is excluded, and of the others only a command could write the configuration. -/
theorem configurationIsImmutableAfterInit : Obligations.ConfigurationIsImmutableAfterInit := by
  intro s t hph h hreset
  obtain ⟨rest, hp, _⟩ | ⟨_, _, e⟩ | ⟨_, rest, i, _, _, _, e⟩ | ⟨_, rest, _, _, _, e⟩ | ⟨_, _, e⟩ := step_cases s
  case inl => simp [hp] at hreset
  all_goals rw [e] at h
  · exact (microStep_configOf h).trans (configOf_strobesLow s)
  · exact (exec_configOf (s := s.accept rest) hph h).trans (configOf_accept s rest)
  · cases h
    simp
  · cases h
    exact configOf_strobesLow s

end Sys2Proof.Laws
end

section
/-! A run of the machine, and the snapshot under a run in which the host issues no SRU (20_memory.md R68). -/

namespace Sys2Proof.Laws

open Sys2Proof Sys2Proof.Machine Sys2Proof.Safety

/-! A property every completed step keeps is kept by a run. -/

theorem run_succ_next {M : Host.Core} {k : Nat} {s t : M.State} (h : M.run (k + 1) s = .next t) :
    ∃ u, M.step s = .next u ∧ M.run k u = .next t := by
  rw [Host.Core.run] at h
  split at h
  · next u hu => exact ⟨u, hu, h⟩
  all_goals cases h

theorem run_keeps {M : Host.Core} {P : M.State → Prop} (hstep : ∀ {u v}, P u → M.step u = .next v → P v) {k : Nat}
    {s t : M.State} (hs : P s) (h : M.run k s = .next t) : P t := by
  induction k generalizing s with
  | zero =>
    cases h
    exact hs
  | succ k ih =>
    obtain ⟨u, hu, hrun⟩ := run_succ_next h
    exact ih (hstep hs hu) hrun

/-! The word of SRU. -/

/-- Only the opcode SRU has the command SRU among its operands. -/
theorem opcode_of_operands_sru {w : Word} {op : Opcode} (h : operands w op = some .sru) : op = .sru := by
  cases op
  case sru => rfl
  all_goals simp [operands] at h

/-- SRU has one word: its opcode fills the top byte and every other bit is reserved (30_encoding.md R86). -/
theorem word_of_decode_sru {p : Params} {w : Word} (h : decode p w = some .sru) : w = 0x10000000#32 := by
  obtain ⟨op, hop, hres, hargs, -⟩ := decode_eq_some.mp h
  obtain rfl := opcode_of_operands_sru hargs
  have hcode : w.toNat / 2 ^ 24 = 16 := by
    rw [← opField_toNat, ← code_of_ofCode hop]
    rfl
  have hlow : w.toNat % 2 ^ 24 = 0 := (reservedZero_z w).mp hres
  apply BitVec.eq_of_toNat_eq
  change w.toNat = 16 * 2 ^ 24
  omega

/-! The snapshot between two SRU. -/

/-- `u` is idle, its host presents neither a reset nor SRU, and it holds the snapshot and the pin trace of `s`. -/
structure SnapshotKept (s u : State) : Prop where
  idle : u.ph = 0#6
  port : ∀ x ∈ u.port, x ≠ .reset ∧ x ≠ .command 0x10000000#32
  buf : u.buf = s.buf
  pt : u.pt = s.pt
  snap : u.snap = s.snap

/-- The host's next word is taken off a port that presents no SRU, and a command other than SRU leaves the reader. -/
theorem SnapshotKept.after_exec {s u v : State} (h : SnapshotKept s u) {w : Word} {rest : List PortInput} {i : Instr}
    (hp : u.port = .command w :: rest) (hd : decode u.params w = some i) (he : exec i (u.accept rest) = .next v) :
    SnapshotKept s v := by
  obtain ⟨hw, hrest⟩ := List.forall_mem_cons.mp (hp ▸ h.port)
  have hi : i ≠ .sru := by
    rintro rfl
    exact hw.2 (congrArg _ (word_of_decode_sru hd))
  obtain ⟨x, r, hwr, rfl⟩ := exec_writes he
  obtain ⟨hbuf, -, hsnap, -, -, -, hph, hpt, -⟩ := hwr.reader_eq hi
  have hport : x.port = rest := hwr.port_eq
  exact ⟨hph.trans h.idle, hport.symm ▸ hrest, hbuf.trans h.buf, hpt.trans h.pt, hsnap.trans h.snap⟩

/-- A step from such a state is a command, an illegal word or an idle turn; the last two write a response or strobes only. -/
theorem SnapshotKept.after_step {s u v : State} (h : SnapshotKept s u) (hs : step u = .next v) : SnapshotKept s v := by
  obtain ⟨rest, hp, _⟩ | ⟨_, hbusy, _⟩ | ⟨w, rest, i, hp, _, hd, e⟩ | ⟨w, rest, hp, _, _, e⟩ | ⟨_, _, e⟩ := step_cases u
  · obtain ⟨hreset, -⟩ := List.forall_mem_cons.mp (hp ▸ h.port)
    exact absurd rfl hreset.1
  · exact absurd h.idle hbusy
  · exact h.after_exec hp hd (e ▸ hs)
  · obtain ⟨-, hrest⟩ := List.forall_mem_cons.mp (hp ▸ h.port)
    rw [e] at hs
    cases hs
    exact ⟨h.idle, hrest, h.buf, h.pt, h.snap⟩
  · rw [e] at hs
    cases hs
    exact ⟨h.idle, h.port, h.buf, h.pt, h.snap⟩

/-- Settles O38: the state before the run keeps its own snapshot, and every step of the run keeps that. -/
theorem snapshotStandsBetweenSrus : Obligations.SnapshotStandsBetweenSrus := by
  intro k s t hph hport h
  have hs : SnapshotKept s s := ⟨hph, hport, rfl, rfl, rfl⟩
  have ht : SnapshotKept s t := run_keeps SnapshotKept.after_step hs h
  exact ⟨ht.buf, ht.pt, ht.snap⟩

end Sys2Proof.Laws
end

section
/-! The two directions of the round trip between words and commands (30_encoding.md R82, R88). -/

namespace Sys2Proof

/-- The operands of an opcode make a command of that opcode. -/
theorem opcode_of_operands {w : Word} {op : Opcode} {i : Instr} (h : operands w op = some i) : i.opcode = op := by
  cases op
  case cfgw =>
    obtain ⟨reg, -, rfl⟩ := Option.map_eq_some_iff.mp h
    rfl
  all_goals
    cases h
    rfl

/-- The four checks of 30_encoding.md R88, with the opcode read off the command. -/
theorem decode_eq_some_iff {p : Params} {w : Word} {i : Instr} :
    decode p w = some i ↔
      opField w = i.opcode.code ∧ i.opcode.format.reservedZero w = true ∧ operands w i.opcode = some i ∧ i.wf p = true := by
  rw [decode_eq_some]
  constructor
  · rintro ⟨op, hop, hres, hargs, hwf⟩
    obtain rfl := opcode_of_operands hargs
    exact ⟨(code_of_ofCode hop).symm, hres, hargs, hwf⟩
  · rintro ⟨hop, hres, hargs, hwf⟩
    exact ⟨i.opcode, hop ▸ ofCode_code i.opcode, hres, hargs, hwf⟩

/-! What the reserved bits of each format leave of the fields (30_encoding.md R82). -/

theorem fields_z {w : Word} (h : Format.z.reservedZero w = true) :
    (eltField w).val = 0 ∧ regField w = 0#4 ∧ immField w = 0#16 := by
  rw [reservedZero_z] at h
  simp only [← BitVec.toNat_inj, eltField_val, regField_toNat, immField_toNat, BitVec.toNat_ofNat]
  omega

theorem fields_lv {w : Word} (h : Format.lv.reservedZero w = true) :
    (eltField w).val = 0 ∧ regField w = BitVec.ofNat 4 (lineField w).val := by
  rw [reservedZero_lv] at h
  simp only [← BitVec.toNat_inj, eltField_val, regField_toNat, BitVec.toNat_ofNat, lineField_val]
  omega

theorem fields_l {w : Word} (h : Format.l.reservedZero w = true) :
    (eltField w).val = 0 ∧ regField w = BitVec.ofNat 4 (lineField w).val ∧ immField w = 0#16 := by
  obtain ⟨hline, himm⟩ := (reservedZero_l w).mp h
  obtain ⟨he, hr⟩ := fields_lv ((reservedZero_lv w).mpr hline)
  exact ⟨he, hr, BitVec.eq_of_toNat_eq ((immField_toNat w).trans himm)⟩

theorem fields_e {w : Word} (h : Format.e.reservedZero w = true) : regField w = 0#4 ∧ immField w = 0#16 := by
  rw [reservedZero_e] at h
  simp only [← BitVec.toNat_inj, regField_toNat, immField_toNat, BitVec.toNat_ofNat]
  omega

/-- A pair `(e, r)` that names a register is that register's pair (10_state.md R46). -/
theorem pair_of_ofPair {e : Elt} {r : BitVec 4} {reg : CfgReg} (h : CfgReg.ofPair e r = some reg) :
    e.val = reg.pairElt.toNat ∧ r = reg.pairReg := by
  rw [← BitVec.toNat_inj]
  unfold CfgReg.ofPair at h
  split at h
  case h_9 => cases h
  case h_1 hr | h_2 hr | h_3 hr | h_4 hr =>
    split at h
    · next he =>
      cases h
      exact ⟨congrArg Fin.val he, hr⟩
    · cases h
  all_goals
    next hr =>
    cases h
    exact ⟨rfl, hr⟩

/-- The fields of a word whose reserved bits are 0 are the fields of the command its operands make. -/
theorem fields_of_operands {w : Word} {op : Opcode} {i : Instr} (hres : op.format.reservedZero w = true)
    (h : operands w op = some i) :
    (eltField w).val = i.selHigh.toNat ∧ regField w = i.selLow ∧ immField w = i.imm := by
  cases op
  case cfgw =>
    obtain ⟨reg, hreg, rfl⟩ := Option.map_eq_some_iff.mp h
    obtain ⟨he, hr⟩ := pair_of_ofPair hreg
    exact ⟨he, hr, rfl⟩
  all_goals cases h
  case init | stat | sru | selu | incr | selr => exact fields_z hres
  case rd | rdb | ard => exact fields_l hres
  case wr | awr =>
    obtain ⟨he, hr⟩ := fields_lv hres
    exact ⟨he, hr, rfl⟩
  case rslv | encu => exact ⟨rfl, fields_e hres⟩

/-- The four fields are the whole word. -/
theorem word_ext_fields {v w : Word} (hop : opField v = opField w) (he : (eltField v).val = (eltField w).val)
    (hr : regField v = regField w) (hi : immField v = immField w) : v = w := by
  simp only [← BitVec.toNat_inj, opField_toNat, eltField_val, regField_toNat, immField_toNat] at *
  omega

end Sys2Proof

namespace Sys2Proof.Laws

open Sys2Proof

/-- Every command's word carries the command's fields (30_encoding.md R82, R83). -/
theorem fields_statement (i : Instr) : Fields.Statement i := by
  cases i with
  | cfgw reg value => exact Fields.cfgw reg value
  | init => exact Fields.init
  | stat => exact Fields.stat
  | sru => exact Fields.sru
  | rd line => exact Fields.rd line
  | rdb line => exact Fields.rdb line
  | ard line => exact Fields.ard line
  | wr line v => exact Fields.wr line v
  | awr line v => exact Fields.awr line v
  | selu => exact Fields.selu
  | incr => exact Fields.incr
  | selr => exact Fields.selr
  | rslv e => exact Fields.rslv e
  | encu e => exact Fields.encu e

/-- Settles O2: the word carries the opcode, zero reserved bits and the operands, so every check of the decoder passes. -/
theorem encodeThenDecodeGivesTheCommand : Obligations.EncodeThenDecodeGivesTheCommand := by
  intro p i hwf
  obtain ⟨hop, hres, hargs⟩ := fields_statement i
  exact decode_eq_some_iff.mpr ⟨hop, hres, hargs, hwf⟩

/-- Settles O3: the accepted word and the command's word agree in all four fields. -/
theorem decodeThenEncodeGivesTheWord : Obligations.DecodeThenEncodeGivesTheWord := by
  intro p w i h
  obtain ⟨hop, hres, hargs, hwf⟩ := decode_eq_some_iff.mp h
  obtain ⟨he, hr, hi⟩ := fields_of_operands hres hargs
  exact ⟨word_ext_fields ((Fields.opField_encode i).trans hop.symm) ((Fields.eltField_encode i).trans he.symm)
    ((Fields.regField_encode i).trans hr.symm) ((Fields.immField_encode i).trans hi.symm), hwf⟩

end Sys2Proof.Laws
end

section
/-! The opcode map (30_encoding.md R86): a word meets a row's mask and match exactly when it passes the first two checks. -/

namespace Sys2Proof

/-- A mask of two parts, met by two adjacent parts of a word. -/
theorem extract_and_append_eq_append {k s m n : Nat} (x : BitVec k) (a c : BitVec m) (b d : BitVec n) :
    x.extractLsb' s (m + n) &&& (a ++ b) = c ++ d ↔
      x.extractLsb' (s + n) m &&& a = c ∧ x.extractLsb' s n &&& b = d := by
  rw [← BitVec.extractLsb'_append_extractLsb'_eq_extractLsb' rfl, BitVec.and_append]
  constructor
  · intro h
    constructor
    · simpa only [BitVec.extractLsb'_append_eq_left] using congrArg (BitVec.extractLsb' n m) h
    · simpa only [BitVec.extractLsb'_append_eq_right] using congrArg (BitVec.extractLsb' 0 n) h
  · rintro ⟨h1, h2⟩
    rw [h1, h2]

/-- The reserved bits of a format among bits 23:0 (30_encoding.md R82). -/
def Format.reservedMask : Format → BitVec 24
  | .z => BitVec.allOnes 24
  | .l => BitVec.allOnes 5 ++ (0#3 ++ BitVec.allOnes 16)
  | .lv => BitVec.allOnes 5 ++ 0#19
  | .e => 0#4 ++ BitVec.allOnes 20
  | .r => 0#24

theorem reservedZero_iff_mask (f : Format) (w : Word) :
    f.reservedZero w = true ↔ w.extractLsb' 0 24 &&& f.reservedMask = 0#24 := by
  cases f with
  | z => simp only [Format.reservedZero, Format.reservedMask, BitVec.and_allOnes, beq_iff_eq]
  | l =>
    refine Iff.symm ((extract_and_append_eq_append (s := 0) w (BitVec.allOnes 5) 0#5 (0#3 ++ BitVec.allOnes 16)
      (0#3 ++ 0#16)).trans ?_)
    rw [extract_and_append_eq_append]
    simp only [Format.reservedZero, BitVec.and_allOnes, BitVec.and_zero, true_and, Nat.reduceAdd, Bool.and_eq_true,
      beq_iff_eq]
  | lv =>
    refine Iff.symm ((extract_and_append_eq_append (s := 0) w (BitVec.allOnes 5) 0#5 0#19 0#19).trans ?_)
    simp only [Format.reservedZero, BitVec.and_allOnes, BitVec.and_zero, and_true, Nat.reduceAdd, beq_iff_eq]
  | e =>
    refine Iff.symm ((extract_and_append_eq_append (s := 0) w 0#4 0#4 (BitVec.allOnes 20) 0#20).trans ?_)
    simp only [Format.reservedZero, BitVec.and_allOnes, BitVec.and_zero, true_and, beq_iff_eq]
  | r => simp only [Format.reservedZero, Format.reservedMask, BitVec.and_zero]

/-- The `mask` column: the opcode byte and the reserved bits of the row's format. -/
theorem mask_eq (op : Opcode) : op.mask = BitVec.allOnes 8 ++ op.format.reservedMask := by cases op <;> rfl

/-- The `match` column: the opcode, every other bit 0. -/
theorem pattern_eq (op : Opcode) : op.pattern = op.code ++ 0#24 := by cases op <;> rfl

/-- A word meets a row of the opcode map exactly when it has the row's opcode and its reserved bits are 0. -/
theorem and_mask_eq_pattern (w : Word) (op : Opcode) :
    w &&& op.mask = op.pattern ↔ opField w = op.code ∧ op.format.reservedZero w = true := by
  rw [mask_eq, pattern_eq, reservedZero_iff_mask]
  have hsplit := extract_and_append_eq_append (s := 0) w (BitVec.allOnes 8) op.code op.format.reservedMask 0#24
  rw [BitVec.and_allOnes, BitVec.extractLsb'_eq_self] at hsplit
  exact hsplit

/-- Two opcodes of one number are one opcode. -/
theorem code_injective {a b : Opcode} (h : a.code = b.code) : a = b := by
  simpa [ofCode_code] using congrArg Opcode.ofCode h

end Sys2Proof

namespace Sys2Proof.Laws

open Sys2Proof

/-- Settles O4: the mask and match of a row are the decoder's first two checks, and the opcode byte alone tells rows apart. -/
theorem decodeFollowsTheOpcodeMap : Obligations.DecodeFollowsTheOpcodeMap := by
  constructor
  · intro p w i
    rw [decode_eq_some_iff, and_mask_eq_pattern, and_assoc]
  · intro w a b ha hb
    obtain ⟨hopa, -⟩ := (and_mask_eq_pattern w a).mp ha
    obtain ⟨hopb, -⟩ := (and_mask_eq_pattern w b).mp hb
    exact code_injective (hopa.symm.trans hopb)

end Sys2Proof.Laws
end

section
/-! The command port (30_encoding.md R80, R81): an issued word is taken and answered once, and a busy port holds what is
offered. -/

namespace Sys2Proof.Machine

/-- A row of a bit takes the sample, or it drives the clock (44_shiftreg.md R175). -/
theorem State.bitRow_cases (s : State) (sp : SamplePoint) (i r : Nat) :
    s.bitRow sp i r = s.sampleBit i ∨ ∃ l, s.bitRow sp i r = s.drive .clk l := by
  match r, sp with
  | 0, .beforeRise => exact .inl rfl
  | 0, .whileHigh => exact .inr ⟨true, rfl⟩
  | 1, .beforeRise => exact .inr ⟨true, rfl⟩
  | 1, .whileHigh => exact .inl rfl
  | _ + 2, _ => exact .inr ⟨false, rfl⟩

/-- A row of a bit leaves the command port alone. -/
theorem State.bitRow_keeps_port (s : State) (sp : SamplePoint) (i r : Nat) :
    (s.bitRow sp i r).ph = s.ph ∧ (s.bitRow sp i r).port = s.port ∧ (s.bitRow sp i r).responses = s.responses := by
  obtain e | ⟨l, e⟩ := s.bitRow_cases sp i r
  · simp [e, State.sampleBit_eq]
  · simp [e]

/-- A row before the last works on the reader only, then advances PH (44_shiftreg.md R173). -/
theorem microStep_before_last {sp : SamplePoint} {s : State} (h0 : s.ph.toNat ≠ 0)
    (hlt : s.ph.toNat < 4 + 3 * s.params.n) :
    ∃ u : State, microStep sp s = .next u.nextPhase ∧ u.ph = s.ph ∧ u.port = s.port ∧ u.responses = s.responses := by
  obtain ⟨hk, _⟩ | ⟨_, e⟩ | ⟨_, e⟩ | ⟨_, e⟩ | ⟨i, r, _, _, _, e⟩ | ⟨hk, _⟩ | ⟨hk, _⟩ := microStep_cases sp s
  · exact absurd hk h0
  · exact ⟨_, e, by simp⟩
  · exact ⟨_, e, by simp⟩
  · exact ⟨_, e, by simp⟩
  · exact ⟨_, e, s.bitRow_keeps_port sp i r⟩
  · omega
  · omega

theorem microStep_last {sp : SamplePoint} {s : State} (h : s.ph.toNat = 4 + 3 * s.params.n) :
    microStep sp s = .next s.lastPhase := by
  obtain ⟨hk, _⟩ | ⟨hk, _⟩ | ⟨hk, _⟩ | ⟨hk, _⟩ | ⟨i, r, hi, hr, hk, _⟩ | ⟨_, e⟩ | ⟨hk, _⟩ := microStep_cases sp s
  · omega
  · omega
  · omega
  · omega
  · omega
  · exact e
  · omega

end Sys2Proof.Machine

namespace Sys2Proof.Laws

open Sys2Proof Sys2Proof.Machine Sys2Proof.Safety

/-! The turn of a step whose port presents a word. -/

theorem step_command {s : State} {w : Word} {rest : List PortInput} (hph : s.ph = 0#6)
    (hp : s.port = .command w :: rest) : step s = execWord w (s.accept rest) := by
  simp [step, State.turn, State.cmdReady, hp, hph]

theorem step_busy {s : State} {w : Word} {rest : List PortInput} (hph : s.ph ≠ 0#6)
    (hp : s.port = .command w :: rest) : step s = microStep s.params.samplePoint s.strobesLow := by
  simp [step, State.turn, State.cmdReady, hp, hph]

theorem execWord_of_decode {s : State} {w : Word} {i : Instr} (h : decode s.params w = some i) :
    execWord w s = exec i s := by
  rw [execWord, h]

/-- Settles O6: an idle sequencer issues the word, and `State.accept` is the state the statement writes out. -/
theorem stepRunsTheDecodedCommand : Obligations.StepRunsTheDecodedCommand := by
  intro s w rest i hph hp hd
  exact (step_command hph hp).trans (execWord_of_decode (s := s.accept rest) hd)

/-! One response for each word. -/

theorem Writes.responses_eq {i : Instr} {s u : State} (h : Writes i s u) : u.responses = s.responses := by
  cases h <;> rfl

/-- A completed word, legal or not, is a state with the port and the responses of before, answered. -/
theorem execWord_answered {w : Word} {s t : State} (h : execWord w s = .next t) :
    ∃ u r, u.port = s.port ∧ u.responses = s.responses ∧ t = answered u r := by
  unfold execWord at h
  split at h
  · obtain ⟨u, r, hw, rfl⟩ := exec_writes h
    exact ⟨u, r, hw.port_eq, hw.responses_eq, rfl⟩
  · cases h
    exact ⟨s, _, rfl, rfl, rfl⟩

/-- Settles O9: the word is taken before it is executed, and its execution ends in one response. -/
theorem everyCommandGivesOneResponse : Obligations.EveryCommandGivesOneResponse := by
  intro s t w rest hph hp h
  rw [step_command hph hp] at h
  obtain ⟨u, r, hport, hresp, rfl⟩ := execWord_answered h
  exact ⟨congrArg (· ++ [r]) hresp, rfl, hport⟩

/-- Settles O10: a busy step is one micro-operation, of a row before the last or of the last row. -/
theorem busyPortHoldsTheCommand : Obligations.BusyPortHoldsTheCommand := by
  intro s w rest hph hp hle
  have h0 : s.ph.toNat ≠ 0 := fun h => hph (BitVec.eq_of_toNat_eq h)
  refine ⟨by simp [State.cmdReady, hph], ?_⟩
  rw [step_busy hph hp]
  obtain hlt | hlast := Nat.lt_or_eq_of_le hle
  · obtain ⟨u, e, hu, hport, hresp⟩ := microStep_before_last (sp := s.params.samplePoint) (s := s.strobesLow) h0 hlt
    exact ⟨_, e, hport, fun _ => ⟨congrArg (· + 1#6) hu, hresp⟩, fun h => absurd h hlt.ne⟩
  · exact ⟨_, microStep_last (s := s.strobesLow) hlast, rfl, fun h => absurd hlast h.ne, fun _ => ⟨rfl, rfl⟩⟩

/-! Operands no word carries. -/

theorem perform_not_ok {ok : Bool} {need : Need} {s : State} {body : Result} (h : ok = false) :
    perform ok need s body = .next (answered s 0x80000000#32) := by
  subst h
  exact perform_illegal.trans (congrArg _ (respond_illegalCommand s))

/-- Settles O43: the five commands that have a value check are performed behind it; the others are well-formed always. -/
theorem operandsOutOfRangeAreRefused : Obligations.OperandsOutOfRangeAreRefused := by
  intro i s h
  cases i with
  | cfgw reg value => exact perform_not_ok h
  | rd line => exact perform_not_ok h
  | rdb line => exact perform_not_ok h
  | rslv e => exact perform_not_ok h
  | encu e => exact perform_not_ok h
  | init | stat | sru | ard | wr | awr | selu | incr | selr => cases h

end Sys2Proof.Laws
end

section
/-! Command words as numbers (30_encoding.md R86), and the words the spec writes out. -/

namespace Sys2Proof.Laws

open Sys2Proof

/-- Settles O1, by running the decoder on each word; what it answers does not depend on the open parameters. -/
theorem writtenOutWordsDecode : Obligations.WrittenOutWordsDecode := by
  intro sp ovf tPh
  and_intros <;> rfl

/-- The word of a CFGW: its opcode, the register's pair `(e, r)` and the value (40_config.md R101). -/
theorem encode_cfgw_toNat (reg : CfgReg) (v : Half) :
    (encode (.cfgw reg v)).toNat =
      0x01000000 + reg.pairReg.toNat * 0x10000 + reg.pairElt.toNat * 0x100000 + v.toNat := by
  rw [encode_toNat]
  exact congrArg (· + v.toNat) (Nat.add_right_comm (1 * 2 ^ 24) _ _)

/-- The word of a command whose one operand is an element: its opcode and the element (30_encoding.md R86). -/
theorem encode_elt_toNat {i : Instr} {e : Elt} (hh : i.selHigh = BitVec.ofFin e) (hl : i.selLow = 0#4) (hi : i.imm = 0#16) :
    (encode i).toNat = i.opcode.code.toNat * 2 ^ 24 + e.val * 0x100000 := by
  rw [encode_toNat, hh, hl, hi]
  simp

/-- Settles O5: the word of a command is the sum of its fields, each at its place. -/
theorem commandWordsAreTheFormulas : Obligations.CommandWordsAreTheFormulas := by
  refine ⟨fun v => (encode_cfgw_toNat _ v).trans ?_, fun v => (encode_cfgw_toNat _ v).trans ?_,
    fun v => (encode_cfgw_toNat _ v).trans ?_, fun v => (encode_cfgw_toNat _ v).trans ?_,
    fun e v => (encode_cfgw_toNat _ v).trans ?_, fun e v => (encode_cfgw_toNat _ v).trans ?_,
    fun e v => (encode_cfgw_toNat _ v).trans ?_, fun e v => (encode_cfgw_toNat _ v).trans ?_, rfl, rfl, rfl,
    fun l => (Fields.encode_toNat_line rfl rfl).trans ?_, fun l => (Fields.encode_toNat_line rfl rfl).trans ?_,
    fun l => (Fields.encode_toNat_line rfl rfl).trans ?_, fun l v => (Fields.encode_toNat_line rfl rfl).trans ?_,
    fun l v => (Fields.encode_toNat_line rfl rfl).trans ?_, rfl, rfl, rfl,
    fun e => (encode_elt_toNat rfl rfl rfl).trans ?_, fun e => (encode_elt_toNat rfl rfl rfl).trans ?_⟩
  all_goals simp [CfgReg.pairReg, CfgReg.pairElt, Instr.opcode, Opcode.code, Instr.imm]

end Sys2Proof.Laws
end

section
/-! The construction commands (40_config.md): CFGW, INIT and STAT as equations of the next state. -/

namespace Sys2Proof.Machine

open Sys2Proof.Safety

/-! A command with its checks decided, whatever its operand check is. -/

theorem perform_performed {ok : Bool} {need : Need} {s : State} {body : Result} (hok : ok = true)
    (h : need.allows s.phase = true) : perform ok need s body = body := by
  subst hok
  exact perform_body h

theorem perform_not_allowed {ok : Bool} {need : Need} {s : State} {body : Result} (hok : ok = true)
    (h : need.allows s.phase = false) : perform ok need s body = .next (answered s 0x90000000#32) := by
  subst hok
  exact (perform_wrongPhase h).trans (congrArg _ (respond_wrongPhase s))

/-! CFGW. -/

theorem State.updElem?_of_getElem? {s : State} {e : Elt} {el : Elem} (f : Elem → Elem) (h : s.elems[e.val]? = some el) :
    s.updElem? e f = some { s with elems := s.elems.set e.val (f el) } := by
  rw [State.updElem?, h]
  rfl

/-- In CONFIG a CFGW of a register that exists and a value that fits answers 0 after its write (40_config.md R101). -/
theorem exec_cfgw_of_writeReg? {s s' : State} {reg : CfgReg} {v : Half} (hph : s.phase = .config)
    (hreg : reg.exists? s.params = true) (hv : v.toNat < 2 ^ reg.width) (hw : s.writeReg? reg v = some s') :
    exec (.cfgw reg v) s = .next (answered s' 0#32) := by
  refine (perform_performed (by simp [cfgwOperandsOk, hreg, hv]) (by simp [hph])).trans ?_
  rw [hw]
  rfl

/-- The one-bit register WRAP takes bit 0 of a value that fits it (30_encoding.md R87). -/
theorem getLsbD_zero_of_lt_two {v : Half} (h : v.toNat < 2) : v.getLsbD 0 = decide (v = 1#16) := by
  obtain rfl | rfl : v = 0#16 ∨ v = 1#16 := by
    simp only [← BitVec.toNat_inj, BitVec.toNat_ofNat]
    omega
  · rfl
  · rfl

/-! INIT. -/

theorem exec_init_of_check_none {s : State} (hph : s.phase = .config) (h : constructionCheck s = none) :
    exec .init s = .next (answered s.construct 0#32) := by
  refine (perform_performed rfl (by simp [hph])).trans ?_
  rw [h]
  rfl

/-- A failed INIT records the code and answers it (40_config.md R103, 60_exceptions.md R209). -/
theorem exec_init_of_check_some {s : State} {c : InitError} (hph : s.phase = .config) (h : constructionCheck s = some c) :
    exec .init s = .next (answered { s with phase := .rejected, err := some c } (responseWord c.code 0#16)) := by
  refine (perform_performed rfl (by simp [hph])).trans ?_
  rw [h]
  rfl

/-! STAT. -/

/-- SNAP in bit 6, ERR in bits 5:2, PHASE in bits 1:0 (40_config.md R105). -/
theorem statValue_toNat (snap : Bool) (err : Option InitError) (ph : Phase) :
    (statValue snap err ph).toNat = ph.code.toNat + 4 * (errCode err).toNat + 64 * snap.toNat := by
  have hp := ph.code.isLt
  have he := (errCode err).isLt
  have hsnap : (0#9 ++ BitVec.ofBool snap).toNat = snap.toNat := by cases snap <;> rfl
  have e : (statValue snap err ph).toNat =
      ((0#9 ++ BitVec.ofBool snap ++ errCode err : BitVec 14) ++ ph.code).toNat := rfl
  rw [e, BitVec.toNat_append, BitVec.toNat_append, Nat.shiftLeft_eq, Nat.shiftLeft_eq, hsnap, Nat.mul_comm _ (2 ^ 2),
    ← Nat.two_pow_add_eq_or_of_lt hp, Nat.mul_comm _ (2 ^ 4), ← Nat.two_pow_add_eq_or_of_lt he]
  omega

/-- STAT answers its value as the response word. -/
theorem exec_stat (s : State) :
    exec .stat s = .next (answered s (BitVec.ofNat 32
      (s.phase.code.toNat + 4 * (errCode s.err).toNat + 64 * s.snap.toNat))) := by
  have hword : responseWord 0#4 (statValue s.snap s.err s.phase) =
      BitVec.ofNat 32 (statValue s.snap s.err s.phase).toNat := by
    rw [responseWord_ok, BitVec.ofNat_toNat]
  rw [← statValue_toNat, ← hword]
  rfl

end Sys2Proof.Machine

namespace Sys2Proof.Laws

open Sys2Proof Sys2Proof.Machine Sys2Proof.Safety

/-- Settles O15: the response is PHASE, ERR and SNAP at their places, and each code is the number the statement writes. -/
theorem statAnswersTheFlags : Obligations.StatAnswersTheFlags := by
  intro s
  refine (exec_stat s).trans (congrArg (fun n : Nat => Host.Outcome.next (answered s (BitVec.ofNat 32 n))) ?_)
  congr 2
  · cases s.phase <;> rfl
  · obtain _ | c := s.err
    · rfl
    · cases c <;> rfl
  · cases s.snap <;> rfl

/-- Settles O13: a well-formed CFGW writes its register in CONFIG; the two refusals come before the write. -/
theorem cfgwWritesOneRegister : Obligations.CfgwWritesOneRegister := by
  intro s
  refine ⟨fun hph => ⟨?_, ?_, ?_, ?_, ?_⟩, ?_, ?_⟩
  · exact fun v hv => exec_cfgw_of_writeReg? hph rfl hv rfl
  · exact fun v hv => exec_cfgw_of_writeReg? hph rfl hv rfl
  · intro v hv
    rw [← getLsbD_zero_of_lt_two hv]
    exact exec_cfgw_of_writeReg? hph rfl hv rfl
  · exact fun v hv => exec_cfgw_of_writeReg? hph rfl hv rfl
  · intro e el he hel
    have hreg : decide (e.val < s.params.nenc) = true := decide_eq_true he
    exact ⟨fun v => exec_cfgw_of_writeReg? hph hreg v.isLt (State.updElem?_of_getElem? _ hel),
      fun v => exec_cfgw_of_writeReg? hph hreg v.isLt (State.updElem?_of_getElem? _ hel),
      fun v hv => exec_cfgw_of_writeReg? hph hreg hv (State.updElem?_of_getElem? _ hel),
      fun v hv => exec_cfgw_of_writeReg? hph hreg hv (State.updElem?_of_getElem? _ hel)⟩
  · intro reg v hwf hph
    exact perform_not_allowed hwf (by simp [hph])
  · intro reg v hwf
    exact operandsOutOfRangeAreRefused (.cfgw reg v) s hwf

/-- Settles O14: the check is the chain of the five conditions, and INIT does what the check answers. -/
theorem initConstructsOrRejects : Obligations.InitConstructsOrRejects := by
  intro s
  refine ⟨?_, ?_, ?_, ?_, ?_, ?_, ?_⟩
  · intro hph h1 h2 h3 h4 h5
    exact exec_init_of_check_none hph (by simp [constructionCheck_eq, *])
  · intro hph h1
    exact exec_init_of_check_some hph (by simp [constructionCheck_eq, *])
  · intro hph h1 h2
    exact exec_init_of_check_some hph (by simp [constructionCheck_eq, *])
  · intro hph h1 h2 h3
    exact exec_init_of_check_some hph (by simp [constructionCheck_eq, *])
  · intro hph h1 h2 h3 h4
    exact exec_init_of_check_some hph (by simp [constructionCheck_eq, *])
  · intro hph h1 h2 h3 h4 h5
    exact exec_init_of_check_some hph (by simp [constructionCheck_eq, *])
  · intro hph
    exact perform_not_allowed rfl (by simp [hph])

end Sys2Proof.Laws
end

section
/-! How a command can stop (notes/assumptions/12.md): it completes, or it faults in a state that 40_config.md R104 or
00_scope.md R5 rules out; and the states of the three faults of a command. -/

namespace Sys2Proof.Machine

open Sys2Proof.Safety

/-- A refusal completes, so a command stops only where its own effect does. -/
theorem perform_next_or_fault {P : Prop} {ok : Bool} {need : Need} {s : State} {body : Result}
    (h : ok = true → need.allows s.phase = true → (∃ t, body = .next t) ∨ ∃ r, body = .fault r ∧ P) :
    (∃ t, perform ok need s body = .next t) ∨ ∃ r, perform ok need s body = .fault r ∧ P := by
  obtain ⟨-, e⟩ | ⟨-, -, e⟩ | ⟨hok, ha, e⟩ := perform_cases ok need s body
  · exact .inl ⟨_, e⟩
  · exact .inl ⟨_, e⟩
  · rw [e]
    exact h hok ha

/-! The element a command names. -/

theorem State.updElem?_of_length_le {s : State} {e : Elt} (f : Elem → Elem) (h : s.elems.length ≤ e.val) :
    s.updElem? e f = none := by
  rw [State.updElem?, List.getElem?_eq_none h]

/-- An element below `NENC` without registers, which 00_scope.md R5 rules out, leaves the list too short. -/
theorem missing_of_getElem?_none {s : State} {e : Elt} (he : e.val < s.params.nenc) (h : s.elems[e.val]? = none) :
    s.elems.length < s.params.nenc :=
  (List.getElem?_eq_none_iff.mp h).trans_lt he

theorem getElem?_of_updElem?_none {s : State} {e : Elt} {f : Elem → Elem} (h : s.updElem? e f = none) :
    s.elems[e.val]? = none := by
  unfold State.updElem? at h
  split at h
  · cases h
  · assumption

theorem missing_of_writeReg?_none {s : State} {reg : CfgReg} {v : Half} (hreg : reg.exists? s.params = true)
    (h : s.writeReg? reg v = none) : s.elems.length < s.params.nenc := by
  cases reg with
  | nset | initset | wrap | inccfg => cases h
  | pps e | mul e | base e | ofs e =>
    exact missing_of_getElem?_none (of_decide_eq_true hreg) (getElem?_of_updElem?_none h)

/-- A buffered line is missing exactly when its index is `N` or above (20_memory.md R60). -/
theorem State.line?_eq_none_iff {s : State} {i : Nat} : s.line? i = none ↔ s.params.n ≤ i := by
  simp [State.line?]

/-- The states in which a command has no value to answer: an element's registers are missing, or the phase is RUN although
condition 1 or 5 of 40_config.md R102 holds. -/
def Valueless (s : State) : Prop :=
  s.elems.length < s.params.nenc ∨ s.phase = .run ∧ (zeroQuantum s ∨ lineTooLarge s)

/-- Everything a command can answer: a next state, or a fault in such a state. -/
theorem exec_next_or_fault (i : Instr) (s : State) :
    (∃ t, exec i s = .next t) ∨ ∃ r, exec i s = .fault r ∧ Valueless s := by
  cases i <;> simp only [exec]
  all_goals refine perform_next_or_fault fun hok ha => ?_
  case cfgw reg v =>
    cases hw : s.writeReg? reg v with
    | some s' => exact .inl ⟨_, rfl⟩
    | none =>
      obtain ⟨hreg, -⟩ := Bool.and_eq_true_iff.mp hok
      exact .inr ⟨_, rfl, .inl (missing_of_writeReg?_none hreg hw)⟩
  case init =>
    cases constructionCheck s with
    | none => exact .inl ⟨_, rfl⟩
    | some c => exact .inl ⟨_, rfl⟩
  case selu =>
    by_cases hsrc : incSrc s.inccfg = true
    · rw [if_pos hsrc]
      cases hl : s.line? (incLine s.inccfg) with
      | some lvl => exact .inl ⟨_, rfl⟩
      | none =>
        have hline : lineTooLarge s := ⟨hsrc, State.line?_eq_none_iff.mp hl⟩
        exact .inr ⟨_, rfl, .inr ⟨by simpa using ha, .inr hline⟩⟩
    · exact .inl ⟨_, if_neg hsrc⟩
  case rslv e =>
    cases hel : s.elems[e.val]? with
    | some el => exact .inl ⟨_, rfl⟩
    | none => exact .inr ⟨_, rfl, .inl (missing_of_getElem?_none (of_decide_eq_true hok) hel)⟩
  case encu e =>
    cases hel : s.elems[e.val]? with
    | none => exact .inr ⟨_, rfl, .inl (missing_of_getElem?_none (of_decide_eq_true hok) hel)⟩
    | some el =>
      by_cases hpps : el.pps = 0#16
      · have hzero : zeroQuantum s := ⟨el, List.mem_of_getElem? hel, hpps⟩
        exact .inr ⟨_, if_pos hpps, .inr ⟨by simpa using ha, .inl hzero⟩⟩
      · exact .inl ⟨_, if_neg hpps⟩
  all_goals exact .inl ⟨_, rfl⟩

theorem exec_ne_refused (i : Instr) (s : State) (r : Refusal) : exec i s ≠ .refused r := by
  obtain ⟨t, e⟩ | ⟨f, e, -⟩ := exec_next_or_fault i s
  all_goals
    rw [e]
    nofun

/-! The three faults of a command. -/

theorem exec_encu_fault_of_pps_eq_zero {e : Elt} {s : State} {el : Elem} (he : e.val < s.params.nenc)
    (hph : s.phase = .run) (hel : s.elems[e.val]? = some el) (hpps : el.pps = 0#16) :
    exec (.encu e) s = .fault .divisionByZero := by
  refine (perform_performed (decide_eq_true he) (by simp [hph])).trans ?_
  rw [hel]
  exact if_pos hpps

theorem exec_selu_fault_of_lineTooLarge {s : State} (hph : s.phase = .run) (h : lineTooLarge s) :
    exec .selu s = .fault .lineOutOfRange := by
  obtain ⟨hsrc, hline⟩ := h
  refine (perform_performed rfl (by simp [hph])).trans ?_
  rw [if_pos hsrc, State.line?_eq_none_iff.mpr hline]

theorem exec_encu_fault_of_length_le {e : Elt} {s : State} (he : e.val < s.params.nenc) (hph : s.phase = .run)
    (hlen : s.elems.length ≤ e.val) : exec (.encu e) s = .fault .noSuchElement := by
  refine (perform_performed (decide_eq_true he) (by simp [hph])).trans ?_
  rw [List.getElem?_eq_none hlen]

theorem exec_rslv_fault_of_length_le {e : Elt} {s : State} (he : e.val < s.params.nenc) (hph : s.phase = .run)
    (hlen : s.elems.length ≤ e.val) : exec (.rslv e) s = .fault .noSuchElement := by
  refine (perform_performed (decide_eq_true he) (by simp [hph])).trans ?_
  rw [List.getElem?_eq_none hlen]

theorem exec_cfgw_fault_of_writeReg?_none {reg : CfgReg} {v : Half} {s : State} (hph : s.phase = .config)
    (hreg : reg.exists? s.params = true) (hv : v.toNat < 2 ^ reg.width) (hw : s.writeReg? reg v = none) :
    exec (.cfgw reg v) s = .fault .noSuchElement := by
  refine (perform_performed (by simp [cfgwOperandsOk, hreg, hv]) (by simp [hph])).trans ?_
  rw [hw]

end Sys2Proof.Machine

namespace Sys2Proof.Safety

open Sys2Proof.Machine

/-- In a good state every command has a value to answer. -/
theorem Inv.not_valueless {s : State} (h : Inv s) : ¬ Valueless s := by
  rintro (hlen | ⟨hrun, ⟨el, hel, hpps⟩ | ⟨hsrc, hline⟩⟩)
  · exact hlen.ne h.elems_length
  · exact ((h.run_ok hrun).elems_pos el hel).1 hpps
  · exact ((h.run_ok hrun).line_lt hsrc).not_ge hline

/-- In a good state every command completes. -/
theorem Inv.exec_completes {s : State} (h : Inv s) (i : Instr) : ∃ t, exec i s = .next t := by
  obtain hnext | ⟨-, -, hno⟩ := exec_next_or_fault i s
  · exact hnext
  · exact absurd hno h.not_valueless

end Sys2Proof.Safety

namespace Sys2Proof.Laws

open Sys2Proof Sys2Proof.Machine Sys2Proof.Safety

/-- Settles O42: a command completes or faults, and not in a good state; each fault clause is the one branch that faults. -/
theorem commandsStopOnlyInImpossibleStates : Obligations.CommandsStopOnlyInImpossibleStates := by
  refine ⟨?_, exec_ne_refused, fun e s el => exec_encu_fault_of_pps_eq_zero, fun s => exec_selu_fault_of_lineTooLarge,
    ?_, ?_⟩
  · intro i s r hfault hinv
    obtain ⟨t, hnext⟩ := hinv.exec_completes i
    cases hnext.symm.trans hfault
  · intro e s he hph hlen
    exact ⟨exec_encu_fault_of_length_le he hph hlen, exec_rslv_fault_of_length_le he hph hlen⟩
  · intro e v s he hph hlen
    have hreg : decide (e.val < s.params.nenc) = true := decide_eq_true he
    exact ⟨exec_cfgw_fault_of_writeReg?_none hph hreg v.isLt (State.updElem?_of_length_le _ hlen),
      exec_cfgw_fault_of_writeReg?_none hph hreg v.isLt (State.updElem?_of_length_le _ hlen),
      fun hv => ⟨exec_cfgw_fault_of_writeReg?_none hph hreg hv (State.updElem?_of_length_le _ hlen),
        exec_cfgw_fault_of_writeReg?_none hph hreg hv (State.updElem?_of_length_le _ hlen)⟩⟩

end Sys2Proof.Laws
end

section
/-! Every step from a good state completes in a good state (40_config.md R104, 44_shiftreg.md R178). -/

namespace Sys2Proof.Machine

/-- A sample of `DATA` uses up one draw and changes nothing else (10_state.md R33). -/
theorem State.dataTaken_eq (s : State) :
    s.dataTaken = { s with dataIn := s.dataIn.drop 1, draws := s.draws + (1 - s.dataIn.length) } := by
  obtain h | ⟨d, ds, h⟩ : s.dataIn = [] ∨ ∃ d ds, s.dataIn = d :: ds := by cases s.dataIn <;> simp
  all_goals simp [State.dataTaken, h]

/-! The encoder's quotient and delta (41_encoder.md R125). -/

/-- The quotient is no larger than half the range of a position: the difference is a signed value of `POS_W` bits. -/
theorem natAbs_stepsMoved_le {w : Nat} (hw : 1 ≤ w) (c prev : Int) (pps : BitVec 16) :
    (stepsMoved (positionDiff w c prev) pps).natAbs ≤ 2 ^ (w - 1) := by
  have hlo : -(2 ^ (w - 1) : Int) ≤ positionDiff w c prev := wrapInt_lower hw _
  have hhi : positionDiff w c prev < 2 ^ (w - 1) := wrapInt_upper hw _
  have hpow : ((2 ^ (w - 1) : Nat) : Int) = 2 ^ (w - 1) := by push_cast; rfl
  have hquot : (stepsMoved (positionDiff w c prev) pps).natAbs ≤ (positionDiff w c prev).natAbs :=
    Int.natAbs_tdiv_le_natAbs _ _
  omega

theorem eventDelta_ne_zero {q : Int} {mul : BitVec 16} (hq : q ≠ 0) (hm : mul ≠ 0#16) : eventDelta q mul ≠ 0 := by
  have hm' : (mul.toNat : Int) ≠ 0 := by
    simpa [← BitVec.toNat_inj] using hm
  exact mul_ne_zero hq hm'

/-- The delta fits `DELTA_W` signed bits (00_scope.md R5). -/
theorem natAbs_eventDelta_lt {w : Nat} (hw : 1 ≤ w) {q : Int} (hq : q.natAbs ≤ 2 ^ (w - 1)) (mul : BitVec 16) :
    (eventDelta q mul).natAbs < 2 ^ (w + 15) := by
  calc (eventDelta q mul).natAbs = q.natAbs * mul.toNat := Int.natAbs_mul ..
    _ ≤ 2 ^ (w - 1) * mul.toNat := Nat.mul_le_mul_right _ hq
    _ < 2 ^ (w - 1) * 2 ^ 16 := Nat.mul_lt_mul_of_pos_left mul.isLt (Nat.two_pow_pos _)
    _ = 2 ^ (w + 15) := by rw [← Nat.pow_add]; congr 1; omega

end Sys2Proof.Machine

namespace Sys2Proof.Laws

open Sys2Proof Sys2Proof.Machine Sys2Proof.Safety

/-- The samples of a snapshot keep SHR within its `N` bits. -/
theorem shrAfter_lt {s : State} {n : Nat} (hs : s.shr.toNat < 2 ^ n) {k : Nat} (hk : k ≤ n) :
    (shrAfter s k).toNat < 2 ^ n := by
  induction k with
  | zero => exact hs
  | succ k ih => exact setSnapshotBit_lt (ih (by omega)) (by omega)

theorem constructionCheck_eq_none_iff {s : State} :
    constructionCheck s = none ↔
      ¬ zeroQuantum s ∧ ¬ zeroSettings s ∧ ¬ settingTooLarge s ∧ ¬ zeroMultiplier s ∧ ¬ lineTooLarge s := by
  rw [constructionCheck_eq]
  split_ifs <;> simp [*]

/-- An object whose construction finds no error holds what 40_config.md R104 says. -/
theorem runOk_construct {s : State} (h : constructionCheck s = none) : RunOk s.construct := by
  obtain ⟨hquantum, hsettings, hsetting, hmul, hline⟩ := constructionCheck_eq_none_iff.mp h
  exact
    { nset_pos := hsettings
      cur_lt := not_le.mp hsetting
      elems_pos := List.forall_mem_map.mpr fun el hel =>
        ⟨fun h0 => hquantum ⟨el, hel, h0⟩, fun h0 => hmul ⟨el, hel, h0⟩⟩
      line_lt := fun hsrc => not_le.mp fun hle => hline ⟨hsrc, hle⟩ }

end Sys2Proof.Laws

namespace Sys2Proof.Safety

open Sys2Proof.Machine

variable {s : State}

theorem Inv.one_le_posW (h : Inv s) : 1 ≤ s.params.posW := by
  obtain ⟨-, -, ⟨hw, -⟩, -⟩ := h.params_wf
  omega

/-! The writes no clause of the invariant sees. -/

/-- The strobes low or a response given, and the host's inputs taken. -/
theorem Inv.strobed (h : Inv s) (resp : Word) (valid : Bool) (responses : List Word) (port : List PortInput) :
    Inv { s with resp := resp, respValid := valid, evValid := false, responses := responses, port := port } :=
  { h with
    pins := { h.pins with }
    run_ok := fun hrun => { h.run_ok hrun with }
    ev_idle := rfl }

/-- Samples taken, and the level before. -/
theorem Inv.sampled (h : Inv s) (plv : Bool) (dataIn incIn : List Bool) (posIn : List Int) (draws : Nat) :
    Inv { s with plv := plv, dataIn := dataIn, incIn := incIn, posIn := posIn, draws := draws } :=
  { h with
    pins := { h.pins with }
    run_ok := fun hrun => { h.run_ok hrun with } }

theorem Inv.after_response (h : Inv s) (r : Word) : Inv (answered s r) := h.strobed r true _ s.port

theorem Inv.after_reset (h : Inv s) (rest : List PortInput) : Inv (s.takeReset rest) :=
  ((Laws.resetIsAGoodState s.params h.params_wf).sampled true s.dataIn s.incIn s.posIn s.draws).strobed 0#32 false [] rest

theorem Inv.after_incTaken (h : Inv s) : Inv s.incTaken := by
  rw [State.incTaken_eq]
  exact h.sampled s.plv s.dataIn _ s.posIn _

theorem Inv.after_posTaken (h : Inv s) : Inv s.posTaken := by
  rw [State.posTaken_eq]
  exact h.sampled s.plv s.dataIn s.incIn _ _

/-! The writes of the commands. -/

/-- In CONFIG the global configuration registers are free. -/
theorem Inv.configured (h : Inv s) (hph : s.phase = .config) (nset initset : BitVec 8) (wrap : Bool) (inccfg : BitVec 5) :
    Inv { s with nset := nset, initset := initset, wrap := wrap, inccfg := inccfg } :=
  { h with
    pins := { h.pins with }
    run_ok := fun hrun => by cases hph.symm.trans hrun }

/-- One element's registers are replaced: PREV stays a position, and in RUN the two divisors stay non-zero. -/
theorem Inv.with_elem (h : Inv s) {e : Nat} {el : Elem}
    (hprev : -(2 ^ (s.params.posW - 1) : Int) ≤ el.prev ∧ el.prev < 2 ^ (s.params.posW - 1))
    (hpos : s.phase = .run → el.pps ≠ 0#16 ∧ el.mul ≠ 0#16) : Inv { s with elems := s.elems.set e el } :=
  { h with
    elems_length := List.length_set.trans h.elems_length
    prev_range := fun x hx => by
      obtain hx | rfl := List.mem_or_eq_of_mem_set hx
      · exact h.prev_range x hx
      · exact hprev
    pins := { h.pins with }
    run_ok := fun hrun =>
      { h.run_ok hrun with
        elems_pos := fun x hx => by
          obtain hx | rfl := List.mem_or_eq_of_mem_set hx
          · exact (h.run_ok hrun).elems_pos x hx
          · exact hpos hrun } }

theorem Inv.with_event (h : Inv s) (hrun : s.phase = .run) {x : Event} (h0 : x.delta ≠ 0)
    (hlt : x.delta.natAbs < 2 ^ (s.params.posW + 15)) : Inv { s with ev := s.ev ++ [x] } :=
  { h with
    pins := { h.pins with }
    quiet := fun hne => absurd hrun hne
    run_ok := fun hrun => { h.run_ok hrun with }
    deltas := fun y hy => by
      obtain hy | rfl := List.mem_append.mp hy |>.imp_right List.mem_singleton.mp
      · exact h.deltas y hy
      · exact ⟨h0, hlt⟩ }

/-- The setting stays below NSET (43_selector.md R155). -/
theorem Inv.with_setting (h : Inv s) {c : BitVec 8} (hc : c.toNat < s.nset.toNat) : Inv { s with cur := c } :=
  { h with
    pins := { h.pins with }
    run_ok := fun hrun => { h.run_ok hrun with cur_lt := hc } }

/-- A write of a configuration register in CONFIG (40_config.md R101). -/
theorem Inv.after_write {s' : State} {reg : CfgReg} {v : Half} (h : Inv s) (hph : s.phase = .config)
    (hw : s.writeReg? reg v = some s') : Inv s' := by
  obtain ⟨a, b, c, d, rfl⟩ | ⟨e, el, el', hel, hprev, rfl⟩ := Laws.writeReg?_cases hw
  · exact h.configured hph a b c d
  · refine h.with_elem ?_ fun hrun => by cases hph.symm.trans hrun
    rw [hprev]
    exact h.prev_range el (List.mem_of_getElem? hel)

/-- In CONFIG no construction error has been found. -/
theorem Inv.err_isSome_of_config (h : Inv s) (hph : s.phase = .config) : s.err.isSome ≠ true := by
  rw [ne_eq, h.err_rejected, hph]
  nofun

theorem Inv.idle_of_config (h : Inv s) (hph : s.phase = .config) : s.ph = 0#6 := by
  by_contra hbusy
  cases hph.symm.trans (h.busy_run hbusy)

theorem Inv.after_construct (h : Inv s) (hph : s.phase = .config) (hc : constructionCheck s = none) : Inv s.construct :=
  { h with
    elems_length := List.length_map _ |>.trans h.elems_length
    prev_range := List.forall_mem_map.mpr fun _ _ => by
      have hpos : (0 : Int) < 2 ^ (s.params.posW - 1) := by positivity
      exact ⟨neg_nonpos.mpr hpos.le, hpos⟩
    busy_run := fun _ => rfl
    pins := { h.pins with }
    err_rejected := ⟨fun herr => absurd herr (h.err_isSome_of_config hph), nofun⟩
    quiet := fun hne => absurd rfl hne
    run_ok := fun _ => Laws.runOk_construct hc }

theorem Inv.after_reject (h : Inv s) (hph : s.phase = .config) (c : InitError) :
    Inv { s with phase := .rejected, err := some c } :=
  { h with
    busy_run := fun hbusy => absurd (h.idle_of_config hph) hbusy
    pins := { h.pins with }
    err_rejected := ⟨fun _ => rfl, fun _ => rfl⟩
    quiet := fun _ => h.quiet (by simp [hph])
    run_ok := nofun }

/-- A snapshot of `N` bits leaves the reader idle (44_shiftreg.md R171, R178). -/
theorem Inv.after_snapshot (h : Inv s) (hrun : s.phase = .run) : Inv s.takeSnapshot := by
  obtain ⟨⟨hn, -⟩, -, -, -⟩ := h.params_wf
  rw [Laws.takeSnapshot_eq]
  apply Inv.after_response
  have hlt : (Laws.shrAfter s s.params.n).toNat < 2 ^ s.params.n := Laws.shrAfter_lt h.shr_lt le_rfl
  exact
    { h with
      buf_lt := hlt
      shr_lt := hlt
      ph_le := Nat.zero_le _
      busy_run := fun hbusy => absurd rfl hbusy
      pins := ⟨rfl, rfl, if_neg (by omega)⟩
      idle_shr := fun _ => rfl
      unsnapped := nofun
      quiet := fun hne => absurd hrun hne
      run_ok := fun hrun => { h.run_ok hrun with } }

theorem Inv.after_selectorUpdate (h : Inv s) (hrun : s.phase = .run) (lvl : Bool) : Inv (s.selectorUpdate lvl) := by
  have hpl : Inv (s.setPlv lvl) := h.sampled lvl s.dataIn s.incIn s.posIn s.draws
  have hc : ((s.setPlv lvl).applyDet (detect (incAct s.inccfg) s.plv lvl)).cur.toNat < s.nset.toNat :=
    Laws.applyDet_cur_lt (h.run_ok hrun).cur_lt
  simp only [State.selectorUpdate]
  rw [Laws.applyDet_eq]
  exact (hpl.with_setting hc).after_response _

/-- An event moves PREV within its range and has a delta that is not 0 and fits (41_encoder.md R120, R125). -/
theorem Inv.after_translate (h : Inv s) (hrun : s.phase = .run) {e : Elt} {el : Elem} (hel : el ∈ s.elems) {q : Int}
    (hq : q.natAbs ≤ 2 ^ (s.params.posW - 1)) : Inv (s.translate e el q) := by
  have hw : 1 ≤ s.params.posW := h.one_le_posW
  obtain ⟨hpps, hmul⟩ := (h.run_ok hrun).elems_pos el hel
  unfold State.translate
  split
  · exact h.after_response _
  · next hq0 =>
    have hev : Inv { s with ev := s.ev ++ [⟨eventDelta q el.mul, s.resolved el⟩] } :=
      h.with_event hrun (eventDelta_ne_zero hq0 hmul) (natAbs_eventDelta_lt hw hq el.mul)
    have hprev := hev.with_elem (e := e.val) (el := { el with prev := advancePrev s.params.posW el.prev q el.pps })
      ⟨wrapInt_lower hw _, wrapInt_upper hw _⟩ fun _ => ⟨hpps, hmul⟩
    exact hprev.after_response _

theorem Inv.after_effect {i : Instr} {t : State} (h : Inv s) (he : Laws.Effect i s t) : Inv t := by
  cases he with
  | cfgw hph hw => exact (h.after_write hph hw).after_response _
  | initOk hph hc => exact (h.after_construct hph hc).after_response _
  | initBad hph hc => exact (h.after_reject hph _).after_response _
  | sru hrun => exact h.after_snapshot hrun
  | seluPin hrun hsrc => exact h.after_incTaken.after_selectorUpdate (by simpa using hrun) _
  | seluLine hrun hsrc hl => exact h.after_selectorUpdate hrun _
  | incr hrun => exact (h.with_setting (nextSetting_lt (h.run_ok hrun).cur_lt)).after_response _
  | encu hrun he hel hpps =>
    refine h.after_posTaken.after_translate (by simpa using hrun) (by simpa using List.mem_of_getElem? hel) ?_
    rw [State.posTaken_params]
    exact natAbs_stepsMoved_le h.one_le_posW _ _ _
  | stat | rd | rdb | ard | wr | awr | selr | rslv => exact h.after_response _

/-- A command that completes, refused or performed, completes in a good state. -/
theorem Inv.after_exec {i : Instr} {t : State} (h : Inv s) (he : exec i s = .next t) : Inv t := by
  obtain rfl | rfl | heff := Laws.exec_next he
  · exact h.after_response _
  · exact h.after_response _
  · exact h.after_effect heff

/-! The micro-operations (44_shiftreg.md R173). -/

/-- The level of CLK before the `r`-th row of a bit (44_shiftreg.md R173). -/
def clkBefore (sp : SamplePoint) (r : Nat) : Bool := decide (r = 2 ∨ r = 1 ∧ sp = .whileHigh)

/-- A row before the last keeps SHR within its bits, leaves the pins as the next row finds them, and advances PH. -/
theorem Inv.after_row {k : Nat} (h : Inv s) (hk : s.ph.toNat = k) (hlt : k < 4 + 3 * s.params.n)
    (hrun : s.phase = .run) {shr : BitVec 8} (hshr : shr.toNat < 2 ^ s.params.n) {loadN ceN clk : Bool}
    (pt : List (Pin × Bool)) (dataIn : List Bool) (draws : Nat)
    (hload : loadN = decide (k + 1 ≠ 2)) (hce : ceN = decide (k + 1 ≤ 3))
    (hclk : clk = decide (4 ≤ k + 1 ∧ clkBefore s.params.samplePoint ((k + 1 - 4) % 3) = true)) :
    Inv { s with
      shr := shr, loadN := loadN, ceN := ceN, clk := clk, pt := pt, dataIn := dataIn, draws := draws
      ph := s.ph + 1#6 } := by
  obtain ⟨⟨-, hn⟩, -, -, -⟩ := h.params_wf
  have hnext : (s.ph + 1#6).toNat = k + 1 := by
    rw [BitVec.toNat_add, hk, BitVec.toNat_ofNat]
    omega
  have hbusy : s.ph + 1#6 ≠ 0#6 := fun h0 => by
    rw [h0] at hnext
    cases hnext
  refine
    { h with
      shr_lt := hshr
      ph_le := ?_
      busy_run := fun _ => hrun
      pins := ⟨?_, ?_, ?_⟩
      idle_shr := fun h0 => absurd h0 hbusy
      quiet := fun hne => absurd hrun hne
      run_ok := fun hrun => { h.run_ok hrun with } }
  · simp only [hnext]
    omega
  · simp only [hnext, hload]
  · simp only [hnext, hce]
  · simp only [hnext, hclk, clkBefore, decide_eq_true_eq]

/-! The rows of a bit. -/

section

variable {i r : Nat}

theorem Inv.clk_eq_clkBefore (h : Inv s) (hr : r < 3) (hk : s.ph.toNat = 4 + 3 * i + r) :
    s.clk = clkBefore s.params.samplePoint r := by
  have hmod : (4 + 3 * i + r - 4) % 3 = r := by omega
  have hle : 4 ≤ 4 + 3 * i + r := by omega
  rw [h.pins.clk_eq, hk, hmod]
  simp [clkBefore, hle]

/-- A row of a bit leaves LOAD_n and CE_n, and CLK is as the next row finds it. -/
theorem Inv.after_row_of_bit (h : Inv s) (hrun : s.phase = .run) (hi : i < s.params.n) (hr : r < 3)
    (hk : s.ph.toNat = 4 + 3 * i + r) {shr : BitVec 8} (hshr : shr.toNat < 2 ^ s.params.n) {clk : Bool}
    (pt : List (Pin × Bool)) (dataIn : List Bool) (draws : Nat)
    (hclk : clk = clkBefore s.params.samplePoint ((r + 1) % 3)) :
    Inv { s with shr := shr, clk := clk, pt := pt, dataIn := dataIn, draws := draws, ph := s.ph + 1#6 } := by
  have hmod : (4 + 3 * i + r + 1 - 4) % 3 = (r + 1) % 3 := by omega
  refine h.after_row hk (by omega) hrun hshr pt dataIn draws ?_ ?_ ?_
  · rw [h.pins.loadN_eq, hk, decide_eq_decide]
    omega
  · rw [h.pins.ceN_eq, hk, decide_eq_decide]
    omega
  · have hle : 4 ≤ 4 + 3 * i + r + 1 := by omega
    simp only [hclk, hmod, hle, true_and, Bool.decide_eq_true]

theorem Inv.after_sample (h : Inv s) (hrun : s.phase = .run) (hi : i < s.params.n) (hr : r < 3)
    (hk : s.ph.toNat = 4 + 3 * i + r)
    (hclk : clkBefore s.params.samplePoint r = clkBefore s.params.samplePoint ((r + 1) % 3)) :
    Inv (s.sampleBit i).nextPhase := by
  rw [State.sampleBit_eq, State.dataTaken_eq]
  exact h.after_row_of_bit hrun hi hr hk (Laws.setSnapshotBit_lt h.shr_lt hi) s.pt _ _
    ((h.clk_eq_clkBefore hr hk).trans hclk)

theorem Inv.after_bitRow (h : Inv s) (hrun : s.phase = .run) (hi : i < s.params.n) (hr : r < 3)
    (hk : s.ph.toNat = 4 + 3 * i + r) : Inv (s.bitRow s.params.samplePoint i r).nextPhase := by
  have hdrive (l : Bool) (hl : l = clkBefore s.params.samplePoint ((r + 1) % 3)) : Inv (s.drive .clk l).nextPhase :=
    h.after_row_of_bit hrun hi hr hk h.shr_lt _ s.dataIn s.draws hl
  have hsample := h.after_sample hrun hi hr hk
  cases hsp : s.params.samplePoint <;> rw [hsp] at hdrive hsample
  all_goals obtain rfl | rfl | rfl : r = 0 ∨ r = 1 ∨ r = 2 := by omega
  · exact hsample rfl
  · exact hdrive true rfl
  · exact hdrive false rfl
  · exact hdrive true rfl
  · exact hsample rfl
  · exact hdrive false rfl

end

/-- The commit of the last row leaves the reader idle (44_shiftreg.md R173, R178, R180). -/
theorem Inv.after_lastPhase (h : Inv s) (hrun : s.phase = .run) (hk : s.ph.toNat = 4 + 3 * s.params.n) :
    Inv s.lastPhase := by
  have hload : s.loadN = true := by
    rw [h.pins.loadN_eq, hk, decide_eq_true_eq]
    omega
  have hclk : s.clk = false := by
    rw [h.pins.clk_eq, hk]
    simp
  have hidle : Inv { s with buf := s.shr, snap := true, ceN := true, pt := s.pt ++ [(.ceN, true)], ph := 0#6 } :=
    { h with
      buf_lt := h.shr_lt
      ph_le := Nat.zero_le _
      busy_run := fun hbusy => absurd rfl hbusy
      pins := ⟨hload, rfl, hclk⟩
      idle_shr := fun _ => rfl
      unsnapped := nofun
      quiet := fun hne => absurd hrun hne
      run_ok := fun hrun => { h.run_ok hrun with } }
  exact hidle.after_response _

/-- A busy sequencer performs a row of its table, and leaves a good state (44_shiftreg.md R173). -/
theorem Inv.microStep_completes (h : Inv s) (hbusy : s.ph ≠ 0#6) :
    ∃ t, microStep s.params.samplePoint s = .next t ∧ Inv t := by
  have hrun : s.phase = .run := h.busy_run hbusy
  have hle := h.ph_le
  obtain ⟨hk, _⟩ | ⟨hk, e⟩ | ⟨hk, e⟩ | ⟨hk, e⟩ | ⟨i, r, hi, hr, hk, e⟩ | ⟨hk, e⟩ | ⟨hk, _⟩ :=
    microStep_cases s.params.samplePoint s
  · exact absurd (BitVec.eq_of_toNat_eq hk) hbusy
  · exact ⟨_, e, h.after_row hk (by omega) hrun h.shr_lt _ s.dataIn s.draws rfl (by simp [h.pins.ceN_eq, hk])
      (by simp [h.pins.clk_eq, hk])⟩
  · exact ⟨_, e, h.after_row hk (by omega) hrun h.shr_lt _ s.dataIn s.draws rfl (by simp [h.pins.ceN_eq, hk])
      (by simp [h.pins.clk_eq, hk])⟩
  · exact ⟨_, e, h.after_row hk (by omega) hrun h.shr_lt _ s.dataIn s.draws (by simp [h.pins.loadN_eq, hk]) rfl
      (by simp [h.pins.clk_eq, hk, clkBefore])⟩
  · exact ⟨_, e, h.after_bitRow hrun hi hr hk⟩
  · exact ⟨_, e, h.after_lastPhase hrun hk⟩
  · omega

end Sys2Proof.Safety

namespace Sys2Proof.Laws

open Sys2Proof Sys2Proof.Machine Sys2Proof.Safety

/-- Settles O41, by the cases of a step: each completes and keeps every clause of `Inv`. -/
theorem goodStatesStepToGoodStates : Obligations.GoodStatesStepToGoodStates := by
  intro s h
  have hlow : Inv s.strobesLow := h.strobed s.resp false s.responses s.port
  have haccept (rest : List PortInput) : Inv (s.accept rest) := h.strobed s.resp false s.responses rest
  obtain ⟨rest, _, e⟩ | ⟨_, hbusy, e⟩ | ⟨_, rest, i, _, _, _, e⟩ | ⟨_, rest, _, _, _, e⟩ | ⟨_, _, e⟩ :=
    step_cases s
  · exact ⟨_, e, h.after_reset rest⟩
  · rw [e]
    exact hlow.microStep_completes hbusy
  · obtain ⟨t, hexec⟩ := (haccept rest).exec_completes i
    exact ⟨t, e.trans hexec, (haccept rest).after_exec hexec⟩
  · exact ⟨_, e, (haccept rest).after_response _⟩
  · exact ⟨_, e, hlow⟩

end Sys2Proof.Laws
end

section
/-! The encoder translator (41_encoder.md): ENCU as an equation of the next state, truncating division, and what one ENCU does
to EV and PREV. -/

namespace Sys2Proof.Machine

open Sys2Proof.Safety

/-! The sample (10_state.md R31). -/

theorem posSample_of_takesPosition {s s0 : State} {z : Int} (h : takesPosition s z s0) :
    s.posSample = wrapInt s.params.posW z := by
  obtain ⟨rest, hin, -⟩ | ⟨hin, rfl, -⟩ := h
  all_goals rw [State.posSample, hin]

theorem posTaken_of_takesPosition {s s0 : State} {z : Int} (h : takesPosition s z s0) : s.posTaken = s0 := by
  obtain ⟨rest, hin, rfl⟩ | ⟨hin, -, rfl⟩ := h
  all_goals rw [State.posTaken, hin]

/-! What the translator writes for the quotient `q` (41_encoder.md R120 steps 4 to 9). -/

theorem State.translate_of_eq_zero {q : Int} (hq : q = 0) (s : State) (e : Elt) (el : Elem) :
    s.translate e el q = answered s 0#32 :=
  if_pos hq

theorem State.translate_of_ne_zero {q : Int} (hq : q ≠ 0) (s : State) (e : Elt) (el : Elem) :
    s.translate e el q = answered
      { s with
        ev := s.ev ++ [{ delta := eventDelta q el.mul, addr := s.resolved el }]
        elems := s.elems.set e.val { el with prev := advancePrev s.params.posW el.prev q el.pps } } 1#32 :=
  if_neg hq

/-! Truncating division of the difference `d` (41_encoder.md R121). -/

section

variable {d : Int} {pps : BitVec 16}

/-- The quotient is 0 for a movement of less than one step (41_encoder.md R123). -/
theorem stepsMoved_eq_zero (h : d.natAbs < pps.toNat) : stepsMoved d pps = 0 := by
  rw [← Int.natAbs_eq_zero, stepsMoved, tdivByNat, Int.natAbs_tdiv]
  exact Nat.div_eq_of_lt h

/-- A quotient that is not 0 has the sign of the difference. -/
theorem sign_stepsMoved (hq : stepsMoved d pps ≠ 0) : (stepsMoved d pps).sign = d.sign := by
  have hge : ¬ d.natAbs < pps.toNat := fun h => hq (stepsMoved_eq_zero h)
  have hpps : pps.toNat ≠ 0 := fun h => hq (by rw [stepsMoved, tdivByNat, h]; exact Int.tdiv_zero d)
  rw [stepsMoved, tdivByNat, Int.sign_tdiv, Int.natAbs_natCast, if_neg hge, Int.sign_natCast_of_ne_zero hpps, mul_one]

/-- What is left of the difference is less than one step. -/
theorem natAbs_sub_stepsMoved_mul_lt (hpps : pps ≠ 0#16) : (d - stepsMoved d pps * pps.toNat).natAbs < pps.toNat := by
  obtain ⟨r, hr, hlt, -, -⟩ := Laws.tdiv_facts d pps.toNat (BitVec.toNat_pos_of_ne_zero hpps)
  rw [stepsMoved, tdivByNat]
  omega

/-- The whole steps lie between 0 and the difference. -/
theorem stepsMoved_mul_between (hpps : pps ≠ 0#16) :
    (0 ≤ d → 0 ≤ stepsMoved d pps * pps.toNat ∧ stepsMoved d pps * pps.toNat ≤ d) ∧
    (d ≤ 0 → d ≤ stepsMoved d pps * pps.toNat ∧ stepsMoved d pps * pps.toNat ≤ 0) := by
  obtain ⟨r, hr, -, hup, hdown⟩ := Laws.tdiv_facts d pps.toNat (BitVec.toNat_pos_of_ne_zero hpps)
  have hp : (0 : Int) ≤ pps.toNat := Int.natCast_nonneg _
  rw [stepsMoved, tdivByNat]
  constructor
  · intro hd
    have hq := Int.mul_nonneg (hup hd).2 hp
    have hr0 := (hup hd).1
    omega
  · intro hd
    have hq := Int.mul_nonpos_of_nonpos_of_nonneg (hdown hd).2 hp
    have hr0 := (hdown hd).1
    omega

/-- The delta of an event has the sign of the difference (41_encoder.md R126). -/
theorem sign_eventDelta {mul : BitVec 16} (hmul : mul ≠ 0#16) (hq : stepsMoved d pps ≠ 0) :
    (eventDelta (stepsMoved d pps) mul).sign = d.sign := by
  rw [eventDelta, Int.sign_mul, sign_stepsMoved hq, Int.sign_natCast_of_ne_zero (BitVec.toNat_pos_of_ne_zero hmul).ne',
    mul_one]

end

/-! The difference and PREV (41_encoder.md R122, R124). -/

/-- PREV of an element after a movement of `q` steps: it is written only when an event is emitted (41_encoder.md R120). -/
def movedPrev (posW : Nat) (prev q : Int) (pps : BitVec 16) : Int :=
  if q = 0 then prev else advancePrev posW prev q pps

/-- After a movement the difference is the remainder of the division, wrapped. -/
theorem positionDiff_movedPrev (w : Nat) (c prev : Int) (pps : BitVec 16) :
    let d := positionDiff w c prev
    positionDiff w c (movedPrev w prev (stepsMoved d pps) pps) = wrapInt w (d - stepsMoved d pps * pps.toNat) := by
  intro d
  by_cases hq : stepsMoved d pps = 0
  · rw [movedPrev, if_pos hq, hq, zero_mul, sub_zero]
    exact Int.bmod_bmod.symm
  · rw [movedPrev, if_neg hq, positionDiff, advancePrev, wrapInt, wrapInt, Int.sub_bmod_bmod, ← sub_sub]
    exact Int.bmod_sub_bmod.symm

/-- The remainder needs no wrap, since it lies between 0 and the difference (41_encoder.md R124). -/
theorem natAbs_positionDiff_movedPrev_lt {w : Nat} (hw : 1 ≤ w) (c prev : Int) {pps : BitVec 16} (hpps : pps ≠ 0#16) :
    (positionDiff w c (movedPrev w prev (stepsMoved (positionDiff w c prev) pps) pps)).natAbs < pps.toNat := by
  have hlo : -(2 ^ (w - 1) : Int) ≤ positionDiff w c prev := wrapInt_lower hw _
  have hhi : positionDiff w c prev < 2 ^ (w - 1) := wrapInt_upper hw _
  have hpow : (0 : Int) < 2 ^ (w - 1) := by positivity
  obtain ⟨hup, hdown⟩ := stepsMoved_mul_between (d := positionDiff w c prev) hpps
  rw [positionDiff_movedPrev, wrapInt_of_range hw (by omega) (by omega)]
  exact natAbs_sub_stepsMoved_mul_lt hpps

/-- Without a counter wrap the write of PREV does not wrap either: PREV moves by the whole steps of the true distance. -/
theorem movedPrev_eq_add {w : Nat} (hw : 1 ≤ w) {c prev : Int} {pps : BitVec 16} (hpps : pps ≠ 0#16)
    (hc : -(2 ^ (w - 1) : Int) ≤ c ∧ c < 2 ^ (w - 1)) (hprev : -(2 ^ (w - 1) : Int) ≤ prev ∧ prev < 2 ^ (w - 1)) :
    movedPrev w prev (stepsMoved (c - prev) pps) pps = prev + stepsMoved (c - prev) pps * pps.toNat := by
  obtain ⟨hup, hdown⟩ := stepsMoved_mul_between (d := c - prev) hpps
  by_cases hq : stepsMoved (c - prev) pps = 0
  · rw [movedPrev, if_pos hq, hq, zero_mul, add_zero]
  · rw [movedPrev, if_neg hq, advancePrev, wrapInt_of_range hw (by omega) (by omega)]

end Sys2Proof.Machine

namespace Sys2Proof.Laws

open Sys2Proof Sys2Proof.Machine Sys2Proof.Safety

section

variable {e : Elt} {s s0 : State} {el : Elem} {z : Int} (he : e.val < s.params.nenc) (hrun : s.phase = .run)
  (hel : s.elems[e.val]? = some el) (hpps : el.pps ≠ 0#16) (hz : takesPosition s z s0)

include he hrun hel hpps hz

/-- ENCU with its checks passed: one sample, and the translator's answer to it (41_encoder.md R120). -/
theorem exec_encu_of_takesPosition : exec (.encu e) s = .next (s0.translate e el
    (stepsMoved (positionDiff s.params.posW (wrapInt s.params.posW z) el.prev) el.pps)) := by
  refine (perform_performed (decide_eq_true he) (by simp [hrun])).trans ?_
  rw [hel, posSample_of_takesPosition hz, posTaken_of_takesPosition hz]
  exact if_neg hpps

/-- ENCU leaves the phase, the sequencer and the host's side of the port, and of the inputs it takes the sample only. -/
theorem exec_encu_frame {t : State} (ht : exec (.encu e) s = .next t) :
    t.phase = s.phase ∧ t.ph = s.ph ∧ t.port = s.port ∧ t.posIn = s0.posIn := by
  rw [exec_encu_of_takesPosition he hrun hel hpps hz] at ht
  injection ht with ht
  obtain ⟨_, htr⟩ | ⟨_, _, _, htr⟩ := translate_cases s0 e el
    (stepsMoved (positionDiff s.params.posW (wrapInt s.params.posW z) el.prev) el.pps)
  all_goals
    rw [← ht, htr]
    obtain ⟨rest, -, rfl⟩ | ⟨-, -, rfl⟩ := hz <;> exact ⟨rfl, rfl, rfl, rfl⟩

/-- What an ENCU does to its element and to EV: PREV moves by the quotient's steps, and an event needs a quotient that is not
0. -/
theorem exec_encu_elem_ev :
    let q := stepsMoved (positionDiff s.params.posW (wrapInt s.params.posW z) el.prev) el.pps
    ∃ t, exec (.encu e) s = .next t ∧
      t.elems[e.val]? = some { el with prev := movedPrev s.params.posW el.prev q el.pps } ∧
      (t.ev = s.ev ∨ q ≠ 0 ∧ ∃ x : Event, t.ev = s.ev ++ [x] ∧ x.delta = eventDelta q el.mul) := by
  intro q
  refine ⟨_, exec_encu_of_takesPosition he hrun hel hpps hz, ?_⟩
  obtain ⟨hlt, -⟩ := List.getElem?_eq_some_iff.mp hel
  by_cases hq : q = 0
  · rw [State.translate_of_eq_zero hq, movedPrev, if_pos hq]
    obtain ⟨rest, -, rfl⟩ | ⟨-, -, rfl⟩ := hz <;> exact ⟨hel, .inl rfl⟩
  · rw [State.translate_of_ne_zero hq, movedPrev, if_neg hq]
    obtain ⟨rest, -, rfl⟩ | ⟨-, -, rfl⟩ := hz <;>
      exact ⟨List.getElem?_set_self hlt, .inr ⟨hq, _, rfl, rfl⟩⟩

/-- An ENCU without a counter wrap: PREV moves by the whole steps of the true distance, and an event has its sign. -/
theorem exec_encu_of_no_wrap (hmul : el.mul ≠ 0#16) (hw : 1 ≤ s.params.posW) {c : Int}
    (hc : wrapInt s.params.posW z = c)
    (hprev : -(2 ^ (s.params.posW - 1) : Int) ≤ el.prev ∧ el.prev < 2 ^ (s.params.posW - 1))
    (hdist : -(2 ^ (s.params.posW - 1) : Int) ≤ c - el.prev ∧ c - el.prev < 2 ^ (s.params.posW - 1)) :
    ∃ t el', exec (.encu e) s = .next t ∧ t.elems[e.val]? = some el' ∧
      el'.prev = el.prev + stepsMoved (c - el.prev) el.pps * el.pps.toNat ∧
      (t.ev = s.ev ∨ ∃ x : Event, t.ev = s.ev ++ [x] ∧ c ≠ el.prev ∧ x.delta.sign = (c - el.prev).sign) := by
  obtain ⟨t, ht, helem, hev⟩ := exec_encu_elem_ev he hrun hel hpps hz
  have hcrange : -(2 ^ (s.params.posW - 1) : Int) ≤ c ∧ c < 2 ^ (s.params.posW - 1) :=
    hc ▸ ⟨wrapInt_lower hw z, wrapInt_upper hw z⟩
  have hd : positionDiff s.params.posW c el.prev = c - el.prev := wrapInt_of_range hw hdist.1 hdist.2
  rw [hc, hd] at helem hev
  refine ⟨t, _, ht, helem, movedPrev_eq_add hw hpps hcrange hprev, hev.imp_right ?_⟩
  rintro ⟨hq, x, hx, hdelta⟩
  refine ⟨x, hx, ?_, hdelta ▸ sign_eventDelta hmul hq⟩
  rintro rfl
  exact hq (stepsMoved_eq_zero (by simpa using BitVec.toNat_pos_of_ne_zero hpps))

end

/-- Settles O18: the quotient is 0 or not, which are the two branches of the translator. -/
theorem encuTranslates : Obligations.EncuTranslates := by
  intro e s s0 el z he hrun hel hpps hz m c d q
  have hexec := exec_encu_of_takesPosition he hrun hel hpps hz
  refine ⟨fun hq => hexec.trans (congrArg _ (State.translate_of_eq_zero hq s0 e el)), fun hq => hexec.trans ?_⟩
  obtain ⟨rest, -, rfl⟩ | ⟨-, -, rfl⟩ := hz <;> exact congrArg _ (State.translate_of_ne_zero hq _ e el)

/-- Settles O19: a difference below one step has the quotient 0. -/
theorem subStepMovementIsSilent : Obligations.SubStepMovementIsSilent := by
  intro e s s0 el z he hrun hel hz hlt
  have hpps : el.pps ≠ 0#16 := fun h0 => by
    rw [h0] at hlt
    exact Nat.not_lt_zero _ hlt
  obtain ⟨hsilent, -⟩ := encuTranslates e s s0 el z he hrun hel hpps hz
  exact hsilent (stepsMoved_eq_zero hlt)

/-- Settles O20: the new difference is the remainder of the division. -/
theorem remainderStaysBelowOneStep : Obligations.RemainderStaysBelowOneStep := by
  intro e s s0 t el z he hrun hel hpps hz hw ht
  obtain ⟨t', ht', helem, -⟩ := exec_encu_elem_ev he hrun hel hpps hz
  cases ht'.symm.trans ht
  exact ⟨_, helem, natAbs_positionDiff_movedPrev_lt (by omega) _ _ hpps⟩

/-- Settles O21: the delta is the quotient times MUL, and the quotient has the sign of the difference. -/
theorem deltaIsNonzeroExactAndSigned : Obligations.DeltaIsNonzeroExactAndSigned := by
  intro e s s0 t el z he hrun hel hpps hmul hw hz ht
  obtain ⟨t', ht', -, hev⟩ := exec_encu_elem_ev he hrun hel hpps hz
  cases ht'.symm.trans ht
  refine hev.imp_right ?_
  rintro ⟨hq, x, hx, hdelta⟩
  have hw1 : 1 ≤ s.params.posW := by omega
  have hlt : x.delta.natAbs < 2 ^ (s.params.deltaW - 1) :=
    hdelta ▸ natAbs_eventDelta_lt hw1 (natAbs_stepsMoved_le hw1 _ _ _) el.mul
  have hpow : ((2 ^ (s.params.deltaW - 1) : Nat) : Int) = 2 ^ (s.params.deltaW - 1) := by push_cast; rfl
  exact ⟨x, hx, hdelta ▸ eventDelta_ne_zero hq hmul, hdelta ▸ Dvd.intro_left _ rfl, hdelta ▸ sign_eventDelta hmul hq,
    by omega, by omega⟩

/-- Settles O45: PREV moves by the whole steps of the true distance, which lie between 0 and that distance. -/
theorem prevNeverPassesTheSample : Obligations.PrevNeverPassesTheSample := by
  intro e s s0 el z he hrun hel hpps hmul hw hlo hhi hz c
  have hpos : (0 : Int) < 2 ^ (s.params.posW - 1) := by positivity
  obtain ⟨hup, hdown⟩ := stepsMoved_mul_between (d := c - el.prev) hpps
  have hmove := exec_encu_of_no_wrap he hrun hel hpps hz hmul (by omega) (c := c) rfl ⟨hlo, hhi⟩
  constructor
  · intro hle hdist
    obtain ⟨t, el', ht, hel', hprev', hev⟩ := hmove (by omega)
    obtain ⟨h1, h2⟩ := hup (by omega)
    refine ⟨t, el', ht, hel', by omega, by omega, hev.imp_right ?_⟩
    rintro ⟨x, hx, hne, hsign⟩
    exact ⟨x, hx, Int.sign_eq_one_iff_pos.mp (hsign.trans (Int.sign_eq_one_iff_pos.mpr (by omega)))⟩
  · intro hle hdist
    obtain ⟨t, el', ht, hel', hprev', hev⟩ := hmove (by omega)
    obtain ⟨h1, h2⟩ := hdown (by omega)
    refine ⟨t, el', ht, hel', by omega, by omega, hev.imp_right ?_⟩
    rintro ⟨x, hx, hne, hsign⟩
    exact ⟨x, hx, Int.sign_eq_neg_one_iff_neg.mp (hsign.trans (Int.sign_eq_neg_one_iff_neg.mpr (by omega)))⟩

end Sys2Proof.Laws
end

section
/-! Direction fidelity (41_encoder.md R127): a run of ENCU over samples that all move one way. -/

namespace Sys2Proof.Laws

open Sys2Proof Sys2Proof.Machine Sys2Proof.Safety

theorem run_succ_of_next {M : Host.Core} {k : Nat} {s u : M.State} (h : M.step s = .next u) :
    M.run (k + 1) s = M.run k u := by
  rw [Host.Core.run, h]

/-! The samples. -/

/-- A way for a position to move from `a` to `b` on counters of `w` bits: no sample and no distance wraps, PREV may stop
anywhere in between, and a movement has the sign `σ`. -/
structure OneWay (w : Nat) (R : Int → Int → Prop) (σ : Int) : Prop where
  trans : ∀ {a b c}, R a b → R b c → R a c
  sample : ∀ {a b}, R a b → -(2 ^ (w - 1) : Int) ≤ b ∧ b < 2 ^ (w - 1)
  dist : ∀ {a b}, R a b → -(2 ^ (w - 1) : Int) ≤ b - a ∧ b - a < 2 ^ (w - 1)
  stop : ∀ {a b k}, R a b → (0 ≤ b - a → 0 ≤ k ∧ k ≤ b - a) ∧ (b - a ≤ 0 → b - a ≤ k ∧ k ≤ 0) → R (a + k) b
  sign : ∀ {a b}, R a b → b ≠ a → (b - a).sign = σ

/-- Rising, from 0 or above. -/
def Rises (w : Nat) (a b : Int) : Prop := 0 ≤ a ∧ a ≤ b ∧ b < 2 ^ (w - 1)

/-- Falling, from 0 or below. -/
def Falls (w : Nat) (a b : Int) : Prop := a ≤ 0 ∧ b ≤ a ∧ -(2 ^ (w - 1) : Int) ≤ b

theorem rises_oneWay (w : Nat) : OneWay w (Rises w) 1 where
  trans := fun ⟨ha, hab, _⟩ ⟨_, hbc, hc⟩ => ⟨ha, hab.trans hbc, hc⟩
  sample := fun ⟨_, _, _⟩ => by omega
  dist := fun ⟨_, _, _⟩ => by omega
  stop := fun ⟨_, _, _⟩ ⟨hup, _⟩ => by
    have := hup (by omega)
    exact ⟨by omega, by omega, by omega⟩
  sign := fun ⟨_, _, _⟩ hne => Int.sign_eq_one_of_pos (by omega)

theorem falls_oneWay (w : Nat) : OneWay w (Falls w) (-1) where
  trans := fun ⟨ha, hab, _⟩ ⟨_, hbc, hc⟩ => ⟨ha, hbc.trans hab, hc⟩
  sample := fun ⟨_, _, _⟩ => by
    have : (0 : Int) < 2 ^ (w - 1) := by positivity
    omega
  dist := fun ⟨_, _, _⟩ => by
    have : (0 : Int) < 2 ^ (w - 1) := by positivity
    omega
  stop := fun ⟨_, _, _⟩ ⟨_, hdown⟩ => by
    have := hdown (by omega)
    exact ⟨by omega, by omega, by omega⟩
  sign := fun ⟨_, _, _⟩ hne => Int.sign_eq_neg_one_of_neg (by omega)

/-! The run. -/

/-- A good state in RUN whose host presents one ENCU of element `e` for each of the samples `zs` that are next. -/
structure Polled (e : Elt) (s : State) (zs : List Int) : Prop where
  good : Inv s
  run : s.phase = .run
  idle : s.ph = 0#6
  elt : e.val < s.params.nenc
  port : s.port = List.replicate zs.length (.command (encode (.encu e)))
  posIn : s.posIn = zs

section

variable {e : Elt} {s : State} {el : Elem} {R : Int → Int → Prop} {σ : Int}

/-- A step of such a state is the ENCU, after the host's word is taken from the port. -/
theorem Polled.step_eq {z : Int} {zs : List Int} (h : Polled e s (z :: zs)) :
    ∃ rest, rest = List.replicate zs.length (.command (encode (.encu e))) ∧ step s = exec (.encu e) (s.accept rest) :=
  ⟨_, rfl, stepRunsTheDecodedCommand s _ _ _ h.idle h.port
    (encodeThenDecodeGivesTheCommand s.params _ (decide_eq_true h.elt))⟩

/-- The step leaves the other samples to be polled. -/
theorem Polled.after_step {t : State} {z : Int} {zs : List Int} (h : Polled e s (z :: zs)) (ht : step s = .next t) :
    Polled e t zs := by
  obtain ⟨t', ht', hgood⟩ := goodStatesStepToGoodStates s h.good
  cases ht'.symm.trans ht
  obtain ⟨rest, hrest, hstep⟩ := h.step_eq
  have he : e.val < s.elems.length := h.good.elems_length ▸ h.elt
  obtain ⟨hpps, -⟩ := (h.good.run_ok h.run).elems_pos s.elems[e.val] (List.getElem_mem he)
  have htake : takesPosition (s.accept rest) z { s.accept rest with posIn := zs } := .inl ⟨zs, h.posIn, rfl⟩
  obtain ⟨hphase, hph, hport, hposIn⟩ := exec_encu_frame (s := s.accept rest) h.elt h.run (List.getElem?_eq_getElem he)
    hpps htake (hstep.symm.trans ht)
  exact ⟨hgood, hphase.trans h.run, hph.trans h.idle, step_params ht ▸ h.elt, hport.trans hrest, hposIn⟩

/-- The step moves PREV by whole steps toward the sample. -/
theorem Polled.step_oneWay {z : Int} {zs : List Int} (h : Polled e s (z :: zs)) (hel : s.elems[e.val]? = some el)
    (hR : OneWay s.params.posW R σ) (hz : R el.prev z) :
    ∃ t el', step s = .next t ∧ t.elems[e.val]? = some el' ∧ R el'.prev z ∧
      (t.ev = s.ev ∨ ∃ x : Event, t.ev = s.ev ++ [x] ∧ x.delta.sign = σ) := by
  have hmem : el ∈ s.elems := List.mem_of_getElem? hel
  have hw : 1 ≤ s.params.posW := h.good.one_le_posW
  obtain ⟨hpps, hmul⟩ := (h.good.run_ok h.run).elems_pos el hmem
  obtain ⟨rest, -, hstep⟩ := h.step_eq
  have htake : takesPosition (s.accept rest) z { s.accept rest with posIn := zs } := .inl ⟨zs, h.posIn, rfl⟩
  have hc : wrapInt s.params.posW z = z := wrapInt_of_range hw (hR.sample hz).1 (hR.sample hz).2
  obtain ⟨t, el', ht, hel', hprev', hev⟩ := exec_encu_of_no_wrap (s := s.accept rest) h.elt h.run hel hpps htake
    hmul hw hc (h.good.prev_range el hmem) (hR.dist hz)
  refine ⟨t, el', hstep.trans ht, hel', ?_, hev.imp_right ?_⟩
  · rw [hprev']
    exact hR.stop hz (stepsMoved_mul_between hpps)
  · rintro ⟨x, hx, hne, hsign⟩
    exact ⟨x, hx, hsign.trans (hR.sign hz hne)⟩

/-- Every event of the run has the sign of the movement. -/
theorem Polled.run_oneWay {zs : List Int} (h : Polled e s zs) (hel : s.elems[e.val]? = some el)
    (hR : OneWay s.params.posW R σ) (hfirst : ∀ z ∈ zs, R el.prev z) (hzs : zs.Pairwise R) :
    ∃ t news, Host.Core.run core zs.length s = .next t ∧ t.ev = s.ev ++ news ∧ ∀ x ∈ news, x.delta.sign = σ := by
  induction zs generalizing s el with
  | nil => exact ⟨s, [], rfl, (List.append_nil _).symm, nofun⟩
  | cons z zs ih =>
    obtain ⟨hz, -⟩ := List.forall_mem_cons.mp hfirst
    obtain ⟨hnext, hrest⟩ := List.pairwise_cons.mp hzs
    obtain ⟨u, el', hstep, hel', hprev, hev⟩ := h.step_oneWay hel hR hz
    obtain ⟨t, news, hrun, ht, hsign⟩ := ih (h.after_step hstep) hel' (step_params hstep ▸ hR)
      (fun y hy => hR.trans hprev (hnext y hy)) hrest
    have hrun' : Host.Core.run core (zs.length + 1) s = .next t := (run_succ_of_next hstep).trans hrun
    obtain hev | ⟨x, hev, hx⟩ := hev
    · exact ⟨t, news, hrun', by rw [ht, hev], hsign⟩
    · exact ⟨t, x :: news, hrun', by rw [ht, hev, List.append_assoc, List.singleton_append],
        List.forall_mem_cons.mpr ⟨hx, hsign⟩⟩

end

/-- Settles O22: the run over rising samples, whose events have the sign 1. -/
theorem risingPositionNeverGoesBack : Obligations.RisingPositionNeverGoesBack := by
  intro e s el zs hinv hrun hph he hel hprev hport hpos hzs hrange
  have hpoll : Polled e s zs := ⟨hinv, hrun, hph, he, hport, hpos⟩
  have hfirst : ∀ z ∈ zs, Rises s.params.posW el.prev z := fun z hz => ⟨hprev.ge, hprev ▸ hrange z hz⟩
  have hpair : zs.Pairwise (Rises s.params.posW) :=
    hzs.imp_of_mem fun ha hb hab => ⟨(hrange _ ha).1, hab, (hrange _ hb).2⟩
  obtain ⟨t, news, ht, hev, hsign⟩ := hpoll.run_oneWay hel (rises_oneWay _) hfirst hpair
  exact ⟨t, news, ht, hev, fun x hx => Int.sign_eq_one_iff_pos.mp (hsign x hx)⟩

/-- Settles O23: the run over falling samples, whose events have the sign -1. -/
theorem fallingPositionNeverGoesForward : Obligations.FallingPositionNeverGoesForward := by
  intro e s el zs hinv hrun hph he hel hprev hport hpos hzs hrange
  have hpoll : Polled e s zs := ⟨hinv, hrun, hph, he, hport, hpos⟩
  have hfirst : ∀ z ∈ zs, Falls s.params.posW el.prev z := fun z hz =>
    ⟨hprev.le, hprev ▸ (hrange z hz).2, (hrange z hz).1⟩
  have hpair : zs.Pairwise (Falls s.params.posW) :=
    hzs.imp_of_mem fun ha hb hab => ⟨(hrange _ ha).2, hab, (hrange _ hb).1⟩
  obtain ⟨t, news, ht, hev, hsign⟩ := hpoll.run_oneWay hel (falls_oneWay _) hfirst hpair
  exact ⟨t, news, ht, hev, fun x hx => Int.sign_eq_neg_one_iff_neg.mp (hsign x hx)⟩

end Sys2Proof.Laws
end

section
/-! The bank-offset resolver (42_resolver.md): RSLV as an equation of the next state, the three fields of a resolved address, and
when they are plain sums. -/

namespace Sys2Proof.Machine

open Sys2Proof.Safety

/-- In RUN an RSLV of an element answers the address resolved at that moment (42_resolver.md R143, R144). -/
theorem exec_rslv_of_getElem? {e : Elt} {s : State} {el : Elem} (he : e.val < s.params.nenc) (hrun : s.phase = .run)
    (hel : s.elems[e.val]? = some el) : exec (.rslv e) s = .next (answered s ((s.resolved el).setWidth 32)) := by
  have hword : responseWord 0#4 ((s.resolved el).setWidth 16) = (s.resolved el).setWidth 32 := by
    rw [responseWord_ok, BitVec.setWidth_setWidth (by decide)]
  refine (perform_performed (decide_eq_true he) (by simp [hrun])).trans ?_
  rw [hel, ← hword]
  rfl

end Sys2Proof.Machine

namespace Sys2Proof.Laws

open Sys2Proof Sys2Proof.Machine Sys2Proof.Safety

/-! The fields of an Address (42_resolver.md R140). -/

theorem numberOf_packAddress (c h : BitVec 4) (n : BitVec 7) : numberOf (packAddress c h n) = n.toNat := by
  rw [numberOf, packAddress_toNat]
  omega

theorem channelOf_packAddress (c h : BitVec 4) (n : BitVec 7) : channelOf (packAddress c h n) = h.toNat := by
  rw [channelOf, packAddress_toNat]
  omega

theorem cableOf_packAddress (c h : BitVec 4) (n : BitVec 7) : cableOf (packAddress c h n) = c.toNat := by
  rw [cableOf, packAddress_toNat]
  omega

theorem toNat_eq_fields (a : Address) : a.toNat = numberOf a + 128 * channelOf a + 2048 * cableOf a := by
  unfold numberOf channelOf cableOf
  omega

theorem fields_le (a : Address) : numberOf a ≤ 127 ∧ channelOf a ≤ 15 ∧ cableOf a ≤ 15 := by
  unfold numberOf channelOf cableOf
  omega

/-! The resolved address. -/

/-- Each field of the resolved address is the result of its own sum, with no carry between fields (42_resolver.md R141). -/
theorem resolve_fields (ovf : AddrOvf) (cur : BitVec 8) (base ofs : Address) :
    fieldIs ovf 127 (numberOf base + cur.toNat * numberOf ofs) (numberOf (resolve ovf cur base ofs)) ∧
    fieldIs ovf 15 (channelOf base + cur.toNat * channelOf ofs) (channelOf (resolve ovf cur base ofs)) ∧
    fieldIs ovf 15 (cableOf base + cur.toNat * cableOf ofs) (cableOf (resolve ovf cur base ofs)) := by
  rw [resolve, numberOf_packAddress, channelOf_packAddress, cableOf_packAddress]
  simp only [fieldSum, addrNumber_toNat, addrChannel_toNat, addrCable_toNat]
  exact ⟨fieldResult_spec ovf 7 _, fieldResult_spec ovf 4 _, fieldResult_spec ovf 4 _⟩

/-- When no sum leaves its field's range the resolved address is the three sums side by side, whatever ADDR_OVF is
(42_resolver.md R142). -/
theorem resolve_toNat_of_sums_le {cur : BitVec 8} {base ofs : Address} (ovf : AddrOvf)
    (hnumber : numberOf base + cur.toNat * numberOf ofs ≤ 127)
    (hchannel : channelOf base + cur.toNat * channelOf ofs ≤ 15)
    (hcable : cableOf base + cur.toNat * cableOf ofs ≤ 15) :
    (resolve ovf cur base ofs).toNat =
      (numberOf base + cur.toNat * numberOf ofs) + 128 * (channelOf base + cur.toNat * channelOf ofs) +
        2048 * (cableOf base + cur.toNat * cableOf ofs) := by
  obtain ⟨⟨hn, -⟩, ⟨hh, -⟩, ⟨hc, -⟩⟩ := resolve_fields ovf cur base ofs
  rw [toNat_eq_fields, hn hnumber, hh hchannel, hc hcable]

/-- At setting 0, or with a zero offset, every sum is the base's own field (42_resolver.md R143). -/
theorem resolve_eq_base (ovf : AddrOvf) {cur : BitVec 8} {ofs : Address} (base : Address) (h : cur = 0#8 ∨ ofs = 0#15) :
    resolve ovf cur base ofs = base := by
  obtain ⟨hnumber, hchannel, hcable⟩ : cur.toNat * numberOf ofs = 0 ∧ cur.toNat * channelOf ofs = 0 ∧
      cur.toNat * cableOf ofs = 0 := by
    obtain rfl | rfl := h <;> simp [numberOf, channelOf, cableOf]
  obtain ⟨hn, hh, hc⟩ := fields_le base
  apply BitVec.eq_of_toNat_eq
  rw [resolve_toNat_of_sums_le ovf (by rwa [hnumber]) (by rwa [hchannel]) (by rwa [hcable]), hnumber, hchannel, hcable]
  exact (toNat_eq_fields base).symm

/-- Settles O24: the address is the element's resolved one, whose fields are the results of the sums. -/
theorem rslvAnswersTheFieldSums : Obligations.RslvAnswersTheFieldSums := fun _ s el he hrun hel =>
  ⟨s.resolved el, exec_rslv_of_getElem? he hrun hel, resolve_fields s.params.addrOvf s.cur el.base el.ofs⟩

/-- Settles O25: in RUN the setting is at most NSET - 1, the highest setting of ADDR_OK, so every sum is in range. -/
theorem resolveIsPlainAdditionUnderAddrOk : Obligations.ResolveIsPlainAdditionUnderAddrOk := by
  intro ovf s el hinv hrun haddr hel
  have hcur : s.cur.toNat ≤ s.nset.toNat - 1 := Nat.le_sub_one_of_lt (hinv.run_ok hrun).cur_lt
  have hsum (b f : Nat) : b + s.cur.toNat * f ≤ b + (s.nset.toNat - 1) * f :=
    Nat.add_le_add_left (Nat.mul_le_mul_right f hcur) b
  obtain ⟨hnumber, hchannel, hcable⟩ := haddr el hel
  exact resolve_toNat_of_sums_le ovf ((hsum _ _).trans hnumber) ((hsum _ _).trans hchannel) ((hsum _ _).trans hcable)

/-- Settles O26: RSLV answers the resolved address, which is the base. -/
theorem unmovedElementAnswersItsBase : Obligations.UnmovedElementAnswersItsBase := by
  intro e s el he hrun hel hunmoved
  rw [exec_rslv_of_getElem? he hrun hel, State.resolved, resolve_eq_base _ _ hunmoved]

end Sys2Proof.Laws
end

section
/-! The bank selector (43_selector.md): the level a SELU takes, the edge rule, the transition, and SELU, INCR and SELR as
equations of the next state. -/

namespace Sys2Proof.Machine

open Sys2Proof.Safety

/-! The transition (43_selector.md R155). -/

theorem nextSetting_of_succ_ne {nset cur : BitVec 8} (wrap : Bool) (h : cur.toNat + 1 ≠ nset.toNat) :
    nextSetting nset wrap cur = cur + 1#8 := by
  rw [nextSetting, if_neg h]
  exact BitVec.eq_of_toNat_eq (by simp [BitVec.toNat_add])

/-- At the last setting the transition goes to 0, or stays, by WRAP. -/
theorem nextSetting_of_succ_eq {nset cur : BitVec 8} (wrap : Bool) (h : cur.toNat + 1 = nset.toNat) :
    nextSetting nset wrap cur = if wrap then 0#8 else cur := by
  have hlast : nset - 1#8 = cur := by bv_omega
  rw [nextSetting, if_pos h, hlast]

theorem toNat_add_one_of_lt {cur nset : BitVec 8} (h : cur.toNat + 1 < nset.toNat) : (cur + 1#8).toNat = cur.toNat + 1 := by
  bv_omega

theorem State.applyDet_of_ne_increment (s : State) {d : Det} (h : d ≠ .increment) : s.applyDet d = s := by
  cases d with
  | none | reserved2 | reserved3 => rfl
  | increment => exact absurd rfl h

/-! The detector (43_selector.md R153). -/

theorem detect_of_edge {act plv lvl : Bool} (hlvl : lvl = act) (hplv : plv ≠ act) : detect act plv lvl = .increment :=
  if_pos ⟨hlvl, hplv⟩

theorem detect_of_not_edge {act plv lvl : Bool} (h : ¬ (lvl = act ∧ plv ≠ act)) : detect act plv lvl = .none := if_neg h

/-- An answer with the code 1 comes from a level that is the active one. -/
theorem level_active_of_detect_code {act plv lvl : Bool} (h : (detect act plv lvl).code = 1#2) : lvl = act := by
  by_contra hlvl
  rw [detect_of_not_edge fun hedge => hlvl hedge.1] at h
  cases h

/-! What the selector does with a level (43_selector.md R151). -/

@[simp] theorem State.selectorUpdate_phase (s : State) (lvl : Bool) : (s.selectorUpdate lvl).phase = s.phase := by
  obtain ⟨_, _, e⟩ := Laws.selectorUpdate_eq_answered s lvl
  rw [e]
  rfl

@[simp] theorem State.selectorUpdate_inccfg (s : State) (lvl : Bool) : (s.selectorUpdate lvl).inccfg = s.inccfg := by
  obtain ⟨_, _, e⟩ := Laws.selectorUpdate_eq_answered s lvl
  rw [e]
  rfl

@[simp] theorem State.selectorUpdate_plv (s : State) (lvl : Bool) : (s.selectorUpdate lvl).plv = lvl := by
  obtain ⟨_, _, e⟩ := Laws.selectorUpdate_eq_answered s lvl
  rw [e]
  rfl

/-- Bits 1:0 of the response are the detector's answer. -/
theorem State.selectorUpdate_resp_det (s : State) (lvl : Bool) :
    (s.selectorUpdate lvl).resp.extractLsb' 0 2 = (detect (incAct s.inccfg) s.plv lvl).code := Laws.selu_det _ _

theorem seluWord_eq (c : BitVec 8) (d : Det) :
    responseWord 0#4 (seluValue c d) = BitVec.ofNat 32 (256 * c.toNat + d.code.toNat) := by
  rw [responseWord_ok, ← seluValue_toNat, BitVec.ofNat_toNat]

theorem State.selectorUpdate_of_edge {s : State} {lvl : Bool} (hlvl : lvl = incAct s.inccfg)
    (hplv : s.plv ≠ incAct s.inccfg) :
    s.selectorUpdate lvl = answered { s with plv := lvl, cur := nextSetting s.nset s.wrap s.cur }
      (BitVec.ofNat 32 (256 * (nextSetting s.nset s.wrap s.cur).toNat + 1)) := by
  rw [State.selectorUpdate, detect_of_edge hlvl hplv]
  exact congrArg (answered { s with plv := lvl, cur := nextSetting s.nset s.wrap s.cur }) (seluWord_eq _ .increment)

theorem State.selectorUpdate_of_not_edge {s : State} {lvl : Bool}
    (h : ¬ (lvl = incAct s.inccfg ∧ s.plv ≠ incAct s.inccfg)) :
    s.selectorUpdate lvl = answered { s with plv := lvl } (BitVec.ofNat 32 (256 * s.cur.toNat)) := by
  rw [State.selectorUpdate, detect_of_not_edge h]
  exact congrArg (answered { s with plv := lvl }) (seluWord_eq s.cur .none)

/-! The level a SELU takes (43_selector.md R151 step 1, R152). -/

/-- The level a SELU takes in `s` is `lvl` and leaves `s0`: the environment's next listed level, a free value when it lists
none (notes/assumptions/5.md), or the buffered line. -/
def TakesLevel (s : State) (lvl : Bool) (s0 : State) : Prop :=
  (incSrc s.inccfg = false ∧ ∃ rest, s.incIn = lvl :: rest ∧ s0 = { s with incIn := rest }) ∨
  (incSrc s.inccfg = false ∧ s.incIn = [] ∧ lvl = Config.freeInc s.draws ∧ s0 = { s with draws := s.draws + 1 }) ∨
  (incSrc s.inccfg = true ∧ incLine s.inccfg < s.params.n ∧ lvl = s.buf.getLsbD (incLine s.inccfg) ∧ s0 = s)

/-- Taking a level uses up at most a sample: the selector's own registers stay. -/
theorem TakesLevel.keeps {s s0 : State} {lvl : Bool} (h : TakesLevel s lvl s0) :
    s0.phase = s.phase ∧ s0.cur = s.cur ∧ s0.plv = s.plv ∧ s0.nset = s.nset ∧ s0.wrap = s.wrap ∧
      s0.inccfg = s.inccfg := by
  obtain ⟨-, rest, -, rfl⟩ | ⟨-, -, -, rfl⟩ | ⟨-, -, -, rfl⟩ := h <;> and_intros <;> rfl

/-- There is a level to take, unless INCCFG names a line that does not exist. -/
theorem exists_takesLevel {s : State} (h : ¬ lineTooLarge s) : ∃ lvl s0, TakesLevel s lvl s0 := by
  cases hsrc : incSrc s.inccfg with
  | true =>
    have hline : incLine s.inccfg < s.params.n := Nat.lt_of_not_le fun hle => h ⟨hsrc, hle⟩
    exact ⟨_, _, .inr (.inr ⟨hsrc, hline, rfl, rfl⟩)⟩
  | false =>
    cases hin : s.incIn with
    | nil => exact ⟨_, _, .inr (.inl ⟨hsrc, hin, rfl, rfl⟩)⟩
    | cons lvl rest => exact ⟨lvl, _, .inl ⟨hsrc, rest, hin, rfl⟩⟩

/-! SELU in RUN. -/

theorem exec_selu_of_takesLevel {s s0 : State} {lvl : Bool} (hrun : s.phase = .run) (h : TakesLevel s lvl s0) :
    exec .selu s = .next (s0.selectorUpdate lvl) := by
  refine (perform_performed rfl (by simp [hrun])).trans ?_
  obtain ⟨hsrc, rest, hin, rfl⟩ | ⟨hsrc, hin, rfl, rfl⟩ | ⟨hsrc, hline, rfl, rfl⟩ := h
  · simp [hsrc, State.incTaken, State.incLevel, hin]
  · simp [hsrc, State.incTaken, State.incLevel, hin]
  · simp [hsrc, State.line?, hline, snapshotBit]

/-- A SELU that completes in RUN took some level. -/
theorem takesLevel_of_exec_selu {s t : State} (hrun : s.phase = .run) (h : exec .selu s = .next t) :
    ∃ lvl s0, TakesLevel s lvl s0 ∧ t = s0.selectorUpdate lvl := by
  have hline : ¬ lineTooLarge s := fun hbad => by
    cases (exec_selu_fault_of_lineTooLarge hrun hbad).symm.trans h
  obtain ⟨lvl, s0, htake⟩ := exists_takesLevel hline
  cases (exec_selu_of_takesLevel hrun htake).symm.trans h
  exact ⟨lvl, s0, htake, rfl⟩

/-- The detector's answer is in the response, from the level before and the level taken, which stands in PLV after. -/
theorem exec_selu_det {s t : State} (hrun : s.phase = .run) (h : exec .selu s = .next t) :
    t.phase = .run ∧ t.inccfg = s.inccfg ∧ t.resp.extractLsb' 0 2 = (detect (incAct s.inccfg) s.plv t.plv).code := by
  obtain ⟨lvl, s0, htake, rfl⟩ := takesLevel_of_exec_selu hrun h
  obtain ⟨hphase, -, hplv, -, -, hcfg⟩ := htake.keeps
  simp [State.selectorUpdate_resp_det, hphase, hrun, hplv, hcfg]

/-- A level that is active already gives no Increment (43_selector.md R154 (a)). -/
theorem exec_selu_of_plv_active {s t : State} (hrun : s.phase = .run) (hplv : s.plv = incAct s.inccfg)
    (h : exec .selu s = .next t) : t.resp.extractLsb' 0 2 = 0#2 ∧ t.cur = s.cur := by
  obtain ⟨lvl, s0, htake, rfl⟩ := takesLevel_of_exec_selu hrun h
  obtain ⟨-, hcur, hplv0, -, -, hcfg⟩ := htake.keeps
  have hedge : ¬ (lvl = incAct s0.inccfg ∧ s0.plv ≠ incAct s0.inccfg) :=
    fun ⟨_, hne⟩ => hne (by rw [hplv0, hcfg, hplv])
  constructor
  · rw [State.selectorUpdate_resp_det, detect_of_not_edge hedge]
    rfl
  · rw [State.selectorUpdate_of_not_edge hedge]
    exact hcur

/-! INIT before SELU. -/

/-- An INIT that ends in RUN has constructed the object (40_config.md R103). -/
theorem construct_of_exec_init {s t : State} (hph : s.phase = .config) (h : exec .init s = .next t)
    (hrun : t.phase = .run) : t = answered s.construct 0#32 := by
  cases hcheck : constructionCheck s with
  | none =>
    cases (exec_init_of_check_none hph hcheck).symm.trans h
    rfl
  | some c =>
    cases (exec_init_of_check_some hph hcheck).symm.trans h
    cases hrun

/-! INCR and SELR. -/

/-- A setting as the value of a response (43_selector.md R157, R158). -/
theorem settingWord_eq (c : BitVec 8) : responseWord 0#4 (c.setWidth 16) = BitVec.ofNat 32 c.toNat := by
  rw [responseWord_ok, BitVec.setWidth_setWidth (by decide), BitVec.ofNat_toNat]

theorem exec_incr_of_run {s : State} (hrun : s.phase = .run) :
    exec .incr s = .next (answered { s with cur := nextSetting s.nset s.wrap s.cur }
      (BitVec.ofNat 32 (nextSetting s.nset s.wrap s.cur).toNat)) := by
  rw [← settingWord_eq]
  exact perform_performed rfl (by simp [hrun])

theorem exec_selr_of_run {s : State} (hrun : s.phase = .run) :
    exec .selr s = .next (answered s (BitVec.ofNat 32 s.cur.toNat)) := by
  rw [← settingWord_eq]
  exact perform_performed rfl (by simp [hrun])

end Sys2Proof.Machine

namespace Sys2Proof.Laws

open Sys2Proof Sys2Proof.Machine Sys2Proof.Safety

/-- Settles O31: (a) no edge begins at the active level, (c) INIT leaves PLV inactive, so the first active level is an edge,
(e) a SELU that counts leaves PLV active, and (a) says the next one does not count. -/
theorem onePressIsOneIncrement : Obligations.OnePressIsOneIncrement := by
  refine ⟨fun _ _ => exec_selu_of_plv_active, ?_, ?_⟩
  · intro s t rest hph hinit hrun hsrc hin
    obtain rfl := construct_of_exec_init hph hinit hrun
    have htake : TakesLevel (answered s.construct 0#32) (incAct s.inccfg) _ := .inl ⟨hsrc, rest, hin, rfl⟩
    refine ⟨_, exec_selu_of_takesLevel hrun htake, ?_⟩
    have hplv : (!incAct s.inccfg) ≠ incAct s.inccfg := Bool.not_ne_self _
    exact (State.selectorUpdate_resp_det _ _).trans (congrArg Det.code (detect_of_edge rfl hplv))
  · intro s t u hrun ht hu hdet
    obtain ⟨hrun', hcfg, hresp⟩ := exec_selu_det hrun ht
    have hplv : t.plv = incAct s.inccfg := level_active_of_detect_code (hresp.symm.trans hdet)
    exact exec_selu_of_plv_active hrun' (hcfg ▸ hplv) hu

/-- Settles O27: the level is taken once, and the selector answers it with an edge or without. -/
theorem seluUpdatesTheSelector : Obligations.SeluUpdatesTheSelector := by
  intro s s0 lvl hrun htake
  obtain ⟨-, hcur, hplv0, hnset, hwrap0, hcfg⟩ := TakesLevel.keeps htake
  rw [exec_selu_of_takesLevel hrun htake, ← hcfg, ← hplv0, ← hcur, ← hnset, ← hwrap0]
  constructor
  · intro hlvl hplv c hstep hwrap hclamp
    have hc : c = nextSetting s0.nset s0.wrap s0.cur := by
      by_cases hlast : s0.cur.toNat + 1 = s0.nset.toNat
      · rw [nextSetting_of_succ_eq _ hlast]
        cases hw : s0.wrap with
        | true => exact hwrap hlast hw
        | false => exact hclamp hlast hw
      · rw [nextSetting_of_succ_ne _ hlast]
        exact hstep hlast
    rw [State.selectorUpdate_of_edge hlvl hplv, hc]
  · intro hedge
    rw [State.selectorUpdate_of_not_edge hedge]

/-- Settles O28: in RUN the answer is the transition, below the last setting and at it; the phase check comes before. -/
theorem incrStepsWrapsOrClamps : Obligations.IncrStepsWrapsOrClamps := by
  intro s
  refine ⟨?_, ?_, ?_, fun hph => perform_not_allowed rfl (by simp [hph])⟩
  · intro hrun hlt
    rw [exec_incr_of_run hrun, nextSetting_of_succ_ne _ hlt.ne, toNat_add_one_of_lt hlt]
  · intro hrun hlast hwrap
    have hzero : nextSetting s.nset s.wrap s.cur = 0#8 := by simp [nextSetting_of_succ_eq _ hlast, hwrap]
    rw [exec_incr_of_run hrun, hzero]
    rfl
  · intro hrun hlast hwrap
    have hstay : nextSetting s.nset s.wrap s.cur = s.cur := by simp [nextSetting_of_succ_eq _ hlast, hwrap]
    rw [exec_incr_of_run hrun, hstay]

/-- Settles O29: SELR answers behind the phase check. -/
theorem selrAnswersTheSetting : Obligations.SelrAnswersTheSetting := fun _ =>
  ⟨exec_selr_of_run, fun hph => perform_not_allowed rfl (by simp [hph])⟩

/-- Settles O30: of the four answers only Increment applies the transition, which keeps the setting below NSET. -/
theorem onlyIncrementMovesTheSetting : Obligations.OnlyIncrementMovesTheSetting := by
  intro s d
  refine ⟨s.applyDet_of_ne_increment, ?_⟩
  rintro rfl hlt
  refine ⟨applyDet_eq s _, applyDet_cur_lt hlt, ?_⟩
  obtain hbelow | hlast := Nat.lt_or_eq_of_le (Nat.succ_le_of_lt hlt)
  · exact .inl ((congrArg BitVec.toNat (nextSetting_of_succ_ne s.wrap hbelow.ne)).trans (toNat_add_one_of_lt hbelow))
  · exact .inr ⟨hlast, nextSetting_of_succ_eq s.wrap hlast⟩

end Sys2Proof.Laws
end

section
/-! The buffered lines and the unsupported operations (44_shiftreg.md R183 to R189): they answer and change nothing else. -/

namespace Sys2Proof.Machine

open Sys2Proof.Safety

/-- A bit as a response (30_encoding.md R96). -/
theorem bitWord_eq (b : Bool) : responseWord 0#4 (bitValue b) = if b then 1#32 else 0#32 := by cases b <;> rfl

/-- RD in RUN answers `BUF[line]` (44_shiftreg.md R183). -/
theorem exec_rd_of_run {line : Line} {s : State} (hline : line.val < s.params.n) (hrun : s.phase = .run) :
    exec (.rd line) s = .next (answered s (if s.buf.getLsbD line.val then 1#32 else 0#32)) := by
  rw [← bitWord_eq]
  exact perform_performed (decide_eq_true hline) (by simp [hrun])

/-- RDB has the meaning of RD (44_shiftreg.md R184). -/
theorem exec_rdb_eq_exec_rd (line : Line) (s : State) : exec (.rdb line) s = exec (.rd line) s := rfl

end Sys2Proof.Machine

namespace Sys2Proof.Laws

open Sys2Proof Sys2Proof.Machine Sys2Proof.Safety

/-- Settles O35: RD is performed behind the check of the line and then of the phase, and RDB is RD. -/
theorem readsAnswerTheBufferedLine : Obligations.ReadsAnswerTheBufferedLine := by
  intro line s
  simp only [exec_rdb_eq_exec_rd, and_self]
  refine ⟨exec_rd_of_run, fun hline hph => ?_, fun hline => ?_⟩
  · exact perform_not_allowed (decide_eq_true hline) (by simp [hph])
  · exact perform_not_ok (decide_eq_false hline.not_gt)

/-- Settles O36: the three operations are one and the same constant answer behind the phase check. -/
theorem unsupportedOperationsAnswerZero : Obligations.UnsupportedOperationsAnswerZero := by
  intro line v s
  constructor
  · intro hrun
    have hanswer : perform true .runOnly s (.next (s.respondOk unsupportedSentinel)) = .next (answered s 0#32) :=
      perform_performed rfl (by simp [hrun])
    exact ⟨hanswer, hanswer, hanswer⟩
  · intro hph
    have hrefused : perform true .runOnly s (.next (s.respondOk unsupportedSentinel)) =
        .next (answered s 0x90000000#32) := perform_not_allowed rfl (by simp [hph])
    exact ⟨hrefused, hrefused, hrefused⟩

end Sys2Proof.Laws
end

section
/-! The snapshot of an SRU (44_shiftreg.md R171, R177; 20_memory.md R63): the samples as one number, and the pin trace between
commands. -/

namespace Sys2Proof.Safety

/-! The number of a list of levels. -/

theorem bitsOf_cons (d : Bool) (ds : List Bool) : bitsOf (d :: ds) = d.toNat + 2 * bitsOf ds := by cases d <;> rfl

theorem testBit_bitsOf (ds : List Bool) (j : Nat) : (bitsOf ds).testBit j = ds[j]?.getD false := by
  induction ds generalizing j with
  | nil => simp [bitsOf]
  | cons d ds ih =>
    rw [bitsOf_cons]
    cases j with
    | zero => cases d <;> simp
    | succ j =>
      have hhalf : (d.toNat + 2 * bitsOf ds) / 2 = bitsOf ds := by
        have := d.toNat_lt
        omega
      rw [Nat.testBit_succ, hhalf, ih]
      rfl

theorem bitsOf_lt (ds : List Bool) : bitsOf ds < 2 ^ ds.length := by
  induction ds with
  | nil => exact Nat.one_pos
  | cons d ds ih =>
    have := d.toNat_lt
    rw [bitsOf_cons, List.length_cons, Nat.pow_succ]
    omega

end Sys2Proof.Safety

namespace Sys2Proof.Laws

open Sys2Proof Sys2Proof.Machine Sys2Proof.Safety

/-! The samples of an SRU. -/

theorem length_nextData (s : State) (n : Nat) : (nextData s n).length = n := by
  simp only [nextData, List.length_append, List.length_take, List.length_map, List.length_range]
  omega

/-- The list of the next `n` levels holds the sample each bit period takes: a listed level, then free values. -/
theorem getElem?_nextData {s : State} {n j : Nat} (hj : j < n) : (nextData s n)[j]? = some (sampleAt s j) := by
  by_cases hlisted : j < s.dataIn.length
  · rw [nextData, List.getElem?_append_left (by rw [List.length_take]; omega), List.getElem?_take_of_lt hj]
    simp [sampleAt, hlisted]
  · have htake : (s.dataIn.take n).length = s.dataIn.length := by
      rw [List.length_take]
      omega
    have hfree : j - s.dataIn.length < n - s.dataIn.length := by omega
    rw [nextData, List.getElem?_append_right (by omega), htake]
    simp [sampleAt, hfree, hlisted]

/-- After `n` samples SHR is the number of the levels taken: no bit of an earlier snapshot is left (20_memory.md R63). -/
theorem shrAfter_eq_bitsOf {s : State} {n : Nat} (hshr : s.shr.toNat < 2 ^ n) :
    shrAfter s n = BitVec.ofNat 8 (bitsOf (nextData s n)) := by
  apply BitVec.eq_of_getLsbD_eq
  intro j hj
  rw [shrAfter_bit s n j hj, BitVec.getLsbD_ofNat, testBit_bitsOf]
  split
  · next hjn => simp [getElem?_nextData hjn, hj]
  · next hjn =>
    have hlow : s.shr.getLsbD j = false :=
      Nat.testBit_lt_two_pow (hshr.trans_le (Nat.pow_le_pow_right two_pos (Nat.le_of_not_lt hjn)))
    have hnone : (nextData s n)[j]? = none := List.getElem?_eq_none (by rw [length_nextData]; omega)
    simp [hlow, hnone]

/-- The snapshot as a response: eight bits hold the number of at most eight levels. -/
theorem snapshotWord_eq {s : State} {n : Nat} (hn : n ≤ 8) :
    (BitVec.ofNat 8 (bitsOf (nextData s n))).setWidth 32 = BitVec.ofNat 32 (bitsOf (nextData s n)) := by
  have hlt : bitsOf (nextData s n) < 2 ^ 8 := by
    calc bitsOf (nextData s n) < 2 ^ (nextData s n).length := bitsOf_lt _
      _ = 2 ^ n := by rw [length_nextData]
      _ ≤ 2 ^ 8 := Nat.pow_le_pow_right two_pos hn
  apply BitVec.eq_of_toNat_eq
  rw [BitVec.toNat_setWidth, BitVec.toNat_ofNat, Nat.mod_eq_of_lt hlt, BitVec.toNat_ofNat]

theorem exec_sru_of_run {s : State} (hrun : s.phase = .run) : exec .sru s = .next s.takeSnapshot :=
  perform_performed rfl (by simp [hrun])

/-- Settles O32: the closed form of the snapshot, with SHR after `N` samples as the number of the levels taken. -/
theorem sruTakesASnapshot : Obligations.SruTakesASnapshot := by
  intro s hrun hn hshr hpos ds
  have hclk : (if s.params.n = 0 then s.clk else false) = false := if_neg (Nat.ne_of_gt hpos)
  rw [exec_sru_of_run hrun, takeSnapshot_eq, shrAfter_eq_bitsOf hshr, snapshotWord_eq hn, hclk]

/-! The pin trace between commands (44_shiftreg.md R177). -/

/-- One more SRU adds one more whole sequence. -/
theorem wholeSequences_append {s t : State} (h : wholeSequences s) (hp : t.params = s.params)
    (hpt : t.pt = s.pt ++ sruPairs s.params.n) : wholeSequences t := by
  obtain ⟨k, hk⟩ := h
  exact ⟨k + 1, by rw [hpt, hk, hp, List.replicate_succ', List.flatten_concat]⟩

theorem wholeSequences_of_pt_eq {s t : State} (h : wholeSequences s) (hp : t.params = s.params) (hpt : t.pt = s.pt) :
    wholeSequences t := by
  obtain ⟨k, hk⟩ := h
  exact ⟨k, by rw [hpt, hk, hp]⟩

/-- A completed command leaves the sequencer idle and PT whole: SRU appends one sequence, no other command drives a pin. -/
theorem exec_keeps_wholeSequences {i : Instr} {s t : State} (hph : s.ph = 0#6) (h : wholeSequences s)
    (he : exec i s = .next t) : t.ph = 0#6 ∧ wholeSequences t := by
  by_cases hi : i = .sru
  · subst hi
    obtain rfl | rfl | hsru := exec_next he
    · exact ⟨hph, h⟩
    · exact ⟨hph, h⟩
    · cases hsru
      rw [takeSnapshot_eq]
      exact ⟨rfl, wholeSequences_append h rfl rfl⟩
  · have hparams : t.params = s.params := exec_params he
    obtain ⟨u, r, hw, rfl⟩ := exec_writes he
    obtain ⟨-, -, -, -, -, -, huph, hpt, -⟩ := hw.reader_eq hi
    exact ⟨huph.trans hph, wholeSequences_of_pt_eq h hparams hpt⟩

/-- Settles O37, by the cases of a step: a reset empties PT, a command keeps it whole, and the others leave it. -/
theorem pinTraceIsWholeSequences : Obligations.PinTraceIsWholeSequences := by
  intro s t hph h hs
  obtain ⟨rest, _, e⟩ | ⟨_, hbusy, _⟩ | ⟨_, rest, i, _, _, _, e⟩ | ⟨_, rest, _, _, _, e⟩ | ⟨_, _, e⟩ := step_cases s
  · cases e.symm.trans hs
    exact ⟨rfl, 0, rfl⟩
  · exact absurd hph hbusy
  · exact exec_keeps_wholeSequences (s := s.accept rest) hph h (e.symm.trans hs)
  · cases e.symm.trans hs
    exact ⟨hph, h⟩
  · cases e.symm.trans hs
    exact ⟨hph, h⟩

end Sys2Proof.Laws
end

section
/-! The micro-operations of an SRU (44_shiftreg.md R173, R181): the row of each phase, and their composition. -/

namespace Sys2Proof.Machine

open Sys2Proof.Safety

/-! The parts of an SRU keep the parameters. -/

@[simp] theorem State.prepareReading_params (s : State) : s.prepareReading.params = s.params := rfl

@[simp] theorem State.shiftIn_params (s : State) (k : Nat) : (s.shiftIn k).params = s.params := by
  rw [Laws.shiftIn_eq]

/-! The rows of a bit as writes of the state. -/

/-- A listed level is sampled into SHR and taken off the list (44_shiftreg.md R175). -/
theorem State.sampleBit_of_dataIn_cons {s : State} {d : Bool} {rest : List Bool} (h : s.dataIn = d :: rest) (i : Nat) :
    s.sampleBit i = { s with dataIn := rest, shr := setSnapshotBit s.shr i d } := by
  simp [State.sampleBit_eq, State.dataTaken, State.dataLevel, h]

/-- A sample and a pin write do not see each other: SAMPLE_POINT does not show in the state (44_shiftreg.md R175). -/
theorem State.sampleBit_drive_clk (s : State) (l : Bool) (i : Nat) :
    (s.drive .clk l).sampleBit i = (s.sampleBit i).drive .clk l := by
  simp only [State.sampleBit_eq, State.dataTaken_eq]
  rfl

/-- The three rows of a bit are its bit period, for both sample points (44_shiftreg.md R175). -/
theorem State.bitRows_eq_bitPeriod (s : State) (sp : SamplePoint) (i : Nat) :
    ((s.bitRow sp i 0).bitRow sp i 1).bitRow sp i 2 = s.bitPeriod i := by
  cases sp with
  | beforeRise => rfl
  | whileHigh => exact congrArg (·.drive .clk false) (s.sampleBit_drive_clk true i)

/-- A row of a bit works beside PH. -/
theorem State.bitRow_setPh (s : State) (sp : SamplePoint) (i r : Nat) (k : BitVec 6) :
    (s.setPh k).bitRow sp i r = (s.bitRow sp i r).setPh k := by
  have hsample : (s.setPh k).sampleBit i = (s.sampleBit i).setPh k := by
    simp only [State.sampleBit_eq, State.dataTaken_eq]
    rfl
  match r, sp with
  | 0, .beforeRise => exact hsample
  | 0, .whileHigh => rfl
  | 1, .beforeRise => rfl
  | 1, .whileHigh => exact hsample
  | _ + 2, _ => rfl

/-! Each row at its value of PH. -/

theorem microStep_loadN_low {sp : SamplePoint} {s : State} (h : s.ph = 1#6) :
    microStep sp s = .next ((s.drive .loadN false).setPh 2#6) := by
  simp [microStep, State.nextPhase, h]

theorem microStep_loadN_high {sp : SamplePoint} {s : State} (h : s.ph = 2#6) :
    microStep sp s = .next ((s.drive .loadN true).setPh 3#6) := by
  simp [microStep, State.nextPhase, h]

theorem microStep_ceN_low {sp : SamplePoint} {s : State} (h : s.ph = 3#6) :
    microStep sp s = .next ((s.drive .ceN false).setPh 4#6) := by
  simp [microStep, State.nextPhase, h]

end Sys2Proof.Machine

namespace Sys2Proof.Laws

open Sys2Proof Sys2Proof.Machine Sys2Proof.Safety

section

variable {sp : SamplePoint} {s : State} {i : Nat}

/-- The row that raises the clock: before the sample, or after it (44_shiftreg.md R175). -/
theorem microStep_clk_high (hi : i < s.params.n)
    (h : (s.ph.toNat = 4 + 3 * i ∧ sp = .whileHigh) ∨ (s.ph.toNat = 5 + 3 * i ∧ sp = .beforeRise)) :
    microStep sp s = .next (s.drive .clk true).nextPhase := by
  obtain ⟨hk, rfl⟩ | ⟨hk, rfl⟩ := h
  · exact microStep_bitRow _ s i 0 hi (by decide) hk
  · exact microStep_bitRow _ s i 1 hi (by decide) (by omega)

theorem microStep_sample (hi : i < s.params.n)
    (h : (s.ph.toNat = 4 + 3 * i ∧ sp = .beforeRise) ∨ (s.ph.toNat = 5 + 3 * i ∧ sp = .whileHigh)) :
    microStep sp s = .next (s.sampleBit i).nextPhase := by
  obtain ⟨hk, rfl⟩ | ⟨hk, rfl⟩ := h
  · exact microStep_bitRow _ s i 0 hi (by decide) hk
  · exact microStep_bitRow _ s i 1 hi (by decide) (by omega)

theorem microStep_clk_low (hi : i < s.params.n) (hk : s.ph.toNat = 6 + 3 * i) :
    microStep sp s = .next (s.drive .clk false).nextPhase :=
  microStep_bitRow sp s i 2 hi (by decide) (by omega)

end

/-- The last row in the statements' terms (44_shiftreg.md R173, R180). -/
theorem lastPhase_eq_answered (s : State) :
    s.lastPhase = answered
      { s with buf := s.shr, snap := true, ceN := true, pt := s.pt ++ [(.ceN, true)], ph := 0#6 }
      (s.shr.setWidth 32) := by
  have hword : responseWord 0#4 (s.shr.setWidth 16) = s.shr.setWidth 32 := by
    rw [responseWord_ok, BitVec.setWidth_setWidth (by decide)]
  rw [← hword]
  rfl

/-- Settles O34: each value of PH has its row, and each row is one pin write, one sample or the commit. -/
theorem phaseTableRows : Obligations.PhaseTableRows := by
  intro sp s _
  refine ⟨microStep_loadN_low, microStep_loadN_high, microStep_ceN_low, fun i hi => ⟨microStep_clk_high hi, ?_,
    microStep_clk_low hi⟩, fun hk => (microStep_last hk).trans (congrArg _ (lastPhase_eq_answered s))⟩
  intro hk d rest hin
  refine ⟨_, microStep_sample hi hk, ?_, fun j hj => ?_⟩
  · rw [State.sampleBit_of_dataIn_cons hin]
    rfl
  · rw [State.sampleBit_of_dataIn_cons hin]
    exact snapshotBit_setSnapshotBit s.shr i d j hj

/-! The composition. -/

section

variable {sp : SamplePoint}

/-- `prepareReading()` is the first three rows (44_shiftreg.md R174). -/
theorem microSteps_prepareReading (s : State) :
    microSteps sp 3 s.startSequencer = .next (s.prepareReading.setPh 4#6) := rfl

/-- A row of a bit, at the value of PH it has. -/
theorem microStep_setPh_bitRow {s : State} {i r : Nat} (hi : i < s.params.n) (hn : s.params.n ≤ 8) (hr : r < 3) :
    microStep sp (s.setPh (BitVec.ofNat 6 (4 + 3 * i + r))) =
      .next ((s.bitRow sp i r).setPh (BitVec.ofNat 6 (4 + 3 * i + (r + 1)))) := by
  have hk : (BitVec.ofNat 6 (4 + 3 * i + r)).toNat = 4 + 3 * i + r := by
    rw [BitVec.toNat_ofNat]
    omega
  have hnext : BitVec.ofNat 6 (4 + 3 * i + r) + 1#6 = BitVec.ofNat 6 (4 + 3 * i + (r + 1)) :=
    (BitVec.ofNat_add ..).symm
  rw [microStep_bitRow sp (s.setPh (BitVec.ofNat 6 (4 + 3 * i + r))) i r hi hr hk, State.bitRow_setPh, ← hnext]
  rfl

/-- The three rows of bit `i` perform its bit period. -/
theorem microSteps_bitPeriod {s : State} {i : Nat} (hi : i < s.params.n) (hn : s.params.n ≤ 8) :
    microSteps sp 3 (s.setPh (BitVec.ofNat 6 (4 + 3 * i))) =
      .next ((s.bitPeriod i).setPh (BitVec.ofNat 6 (4 + 3 * (i + 1)))) := by
  have h0 := microStep_setPh_bitRow (sp := sp) (r := 0) hi hn (by decide)
  have h1 := microStep_setPh_bitRow (sp := sp) (s := s.bitRow sp i 0) (r := 1) (by simpa) (by simpa) (by decide)
  have h2 := microStep_setPh_bitRow (sp := sp) (s := (s.bitRow sp i 0).bitRow sp i 1) (r := 2) (by simpa) (by simpa)
    (by decide)
  rw [Nat.add_zero] at h0
  simp only [microSteps, h0, h1, h2, State.bitRows_eq_bitPeriod]
  rfl

/-- The rows of the first `k` bits perform their bit periods, least significant first (44_shiftreg.md R175). -/
theorem microSteps_shiftIn {s : State} (hn : s.params.n ≤ 8) {k : Nat} (hk : k ≤ s.params.n) :
    microSteps sp (3 * k) (s.setPh 4#6) = .next ((s.shiftIn k).setPh (BitVec.ofNat 6 (4 + 3 * k))) := by
  induction k with
  | zero => rfl
  | succ k ih =>
    rw [Nat.mul_succ, microSteps_add (ih (by omega))]
    exact microSteps_bitPeriod (by rw [State.shiftIn_params]; omega) (by rwa [State.shiftIn_params])

/-- The last row ends the SRU: what it writes does not depend on PH. -/
theorem microSteps_lastPhase {s : State} (hn : s.params.n ≤ 8) :
    microSteps sp 1 (s.setPh (BitVec.ofNat 6 (4 + 3 * s.params.n))) = .next s.lastPhase := by
  have hk : (s.setPh (BitVec.ofNat 6 (4 + 3 * s.params.n))).ph.toNat = 4 + 3 * s.params.n := by
    rw [State.setPh_ph, BitVec.toNat_ofNat]
    omega
  rw [microSteps, microStep_last hk]
  rfl

end

/-- Settles O33: preparation, bit periods and last row are the three parts of the SRU, one after the other. -/
theorem smallStepsComposeToSru : Obligations.SmallStepsComposeToSru := by
  intro sp s hrun hn
  have hbits := microSteps_shiftIn (sp := sp) (s := s.prepareReading) hn le_rfl
  have hlast := microSteps_lastPhase (sp := sp) (s := s.prepareReading.shiftIn s.params.n) (by simpa)
  simp only [State.shiftIn_params, State.prepareReading_params] at hbits hlast
  rw [exec_sru_of_run hrun, show 4 + 3 * s.params.n = 3 + (3 * s.params.n + 1) by omega,
    microSteps_add (microSteps_prepareReading s), microSteps_add hbits, hlast]
  rfl

end Sys2Proof.Laws
end

section
/-! The exceptions (60_exceptions.md): the refusal of an illegal word, the phases a command is performed in, and what leaves a
phase. -/

namespace Sys2Proof.Machine

open Sys2Proof.Safety

/-! The refusal of an illegal word (60_exceptions.md R206). -/

theorem execWord_of_decode_none {s : State} {w : Word} (h : decode s.params w = none) :
    execWord w s = .next (answered s 0x80000000#32) := by
  rw [execWord, h]
  rfl

/-! The status of a command that is performed (30_encoding.md R85): 0, or the code of a construction error. -/

theorem InitError.code_lt (c : InitError) : c.code.toNat < 6 := by cases c <;> decide

theorem responseWord_lt {status : BitVec 4} (value : Half) (h : status.toNat < 6) :
    (responseWord status value).toNat < 0x60000000 := by
  have := value.isLt
  rw [responseWord_toNat]
  omega

theorem State.translate_resp (s : State) (e : Elt) (el : Elem) (q : Int) :
    ∃ v, (s.translate e el q).resp = responseWord statusOk v := by
  unfold State.translate
  split <;> exact ⟨_, rfl⟩

/-- A completed effect that responds with the status 0 or a construction error's code. -/
theorem resp_lt_of_next {u t : State} {status : BitVec 4} {value : Half} (hresp : u.resp = responseWord status value)
    (hstatus : status.toNat < 6) (h : (.next u : Result) = .next t) : t.resp.toNat < 0x60000000 := by
  cases h
  rw [hresp]
  exact responseWord_lt value hstatus

/-- Every command is an effect behind its value checks and the phase table of 60_exceptions.md R207, and the effect never
answers a refusal's status. -/
theorem exec_eq_perform (i : Instr) (s : State) : ∃ need body,
    exec i s = perform (i.wf s.params) need s body ∧ need.allows s.phase = performedIn i s.phase ∧
      ∀ t, body = .next t → t.resp.toNat < 0x60000000 := by
  cases i
  case stat => exact ⟨.anyPhase, _, rfl, rfl, fun t h => resp_lt_of_next rfl (by decide) h⟩
  all_goals
    refine ⟨_, _, rfl, ?_, fun t h => ?_⟩
    · simp [performedIn]
  case cfgw =>
    split at h
    · exact resp_lt_of_next rfl (by decide) h
    · cases h
  case init =>
    split at h
    · exact resp_lt_of_next rfl (by decide) h
    · next c _ => exact resp_lt_of_next rfl c.code_lt h
  case selu =>
    split at h
    · split at h
      · exact resp_lt_of_next rfl (by decide) h
      · cases h
    · exact resp_lt_of_next rfl (by decide) h
  case rslv =>
    split at h
    · exact resp_lt_of_next rfl (by decide) h
    · cases h
  case encu =>
    split at h
    · split at h
      · cases h
      · obtain ⟨v, hv⟩ := State.translate_resp ..
        exact resp_lt_of_next hv (by decide) h
    · cases h
  all_goals exact resp_lt_of_next rfl (by decide) h

/-! PHASE and ERR under the sequencer. -/

theorem State.bitRow_phase_err (s : State) (sp : SamplePoint) (i r : Nat) :
    (s.bitRow sp i r).phase = s.phase ∧ (s.bitRow sp i r).err = s.err := by
  obtain e | ⟨l, e⟩ := s.bitRow_cases sp i r
  · simp [e, State.sampleBit_eq]
  · simp [e]

/-- A micro-operation that completes keeps PHASE and ERR, in every row of the phase table. -/
theorem microStep_phase_err {sp : SamplePoint} {s t : State} (h : microStep sp s = .next t) :
    t.phase = s.phase ∧ t.err = s.err := by
  obtain ⟨_, e⟩ | ⟨_, e⟩ | ⟨_, e⟩ | ⟨_, e⟩ | ⟨i, r, _, _, _, e⟩ | ⟨_, e⟩ | ⟨_, e⟩ := microStep_cases sp s
  all_goals
    rw [e] at h
    cases h
  case inr.inr.inr.inr.inl => exact s.bitRow_phase_err sp i r
  all_goals exact ⟨rfl, rfl⟩

end Sys2Proof.Machine

namespace Sys2Proof.Laws

open Sys2Proof Sys2Proof.Machine Sys2Proof.Safety

/-- Settles O7: the word is taken, its verdict is illegal, and the response overwrites the strobes. -/
theorem illegalWordIsRefused : Obligations.IllegalWordIsRefused := by
  intro s w rest hph hp hd
  exact (step_command hph hp).trans (execWord_of_decode_none (s := s.accept rest) hd)

/-- Settles O8: a command is its effect behind the phase table, and in a good state the effect completes. -/
theorem phaseTableIsObeyed : Obligations.PhaseTableIsObeyed := by
  intro i s hwf
  obtain ⟨need, body, e, hallows, hresp⟩ := exec_eq_perform i s
  refine ⟨fun hp => e.trans (perform_not_allowed hwf (hallows.trans hp)), fun hp hinv => ?_⟩
  obtain ⟨t, ht⟩ := hinv.exec_completes i
  have hbody : exec i s = body := e.trans (perform_performed hwf (hallows.trans hp))
  exact ⟨t, ht, hresp t (hbody.symm.trans ht)⟩

/-- A command that completes keeps PHASE and ERR, unless it is INIT in CONFIG: INIT is refused elsewhere (40_config.md R103). -/
theorem exec_phase_err {i : Instr} {s t : State} (h : exec i s = .next t) :
    (t.phase = s.phase ∧ t.err = s.err) ∨ (s.phase = .config ∧ i = .init) := by
  by_cases hi : i = .init
  · subst hi
    by_cases hph : s.phase = .config
    · exact .inr ⟨hph, rfl⟩
    · have hrefused : exec .init s = .next (answered s 0x90000000#32) := perform_not_allowed rfl (by simp [hph])
      cases hrefused.symm.trans h
      exact .inl ⟨rfl, rfl⟩
  · obtain ⟨u, r, hw, rfl⟩ := exec_writes h
    exact .inl (hw.phase_err_eq hi)

/-- Without a reset a step keeps PHASE and ERR, unless it issues INIT in CONFIG (60_exceptions.md R210, R213). -/
theorem step_phase_err {s t : State} (h : step s = .next t) (hreset : s.port.head? ≠ some .reset) :
    (t.phase = s.phase ∧ t.err = s.err) ∨
      (s.phase = .config ∧ ∃ w rest, s.port = .command w :: rest ∧ decode s.params w = some .init) := by
  obtain ⟨rest, hp, _⟩ | ⟨_, _, e⟩ | ⟨w, rest, i, hp, _, hd, e⟩ | ⟨_, rest, _, _, _, e⟩ | ⟨_, _, e⟩ := step_cases s
  case inl => simp [hp] at hreset
  all_goals rw [e] at h
  · exact .inl (microStep_phase_err (s := s.strobesLow) h)
  · obtain hkept | ⟨hph, rfl⟩ := exec_phase_err h
    · exact .inl hkept
    · exact .inr ⟨hph, w, rest, hp, hd⟩
  · cases h
    exact .inl ⟨rfl, rfl⟩
  · cases h
    exact .inl ⟨rfl, rfl⟩

/-- Settles O16: what a step can do to PHASE and ERR, read in each phase. -/
theorem onlyInitAndResetChangeThePhase : Obligations.OnlyInitAndResetChangeThePhase := by
  intro s t h hreset
  obtain ⟨hph, herr⟩ | ⟨hconfig, hinit⟩ := step_phase_err h hreset
  · exact ⟨fun hs => ⟨hph.trans hs, herr⟩, fun hs => ⟨hph.trans hs, herr⟩, fun hs ht => absurd (hph.trans hs) ht⟩
  · exact ⟨fun hs => (by cases hconfig.symm.trans hs), fun hs => (by cases hconfig.symm.trans hs), fun _ _ => hinit⟩

end Sys2Proof.Laws
end

section
/-! The block right after reset (70_reset_and_hazards.md R232): construction is all it can be asked for. -/

namespace Sys2Proof.Machine

open Sys2Proof.Safety

/-- A block that holds every element's registers performs each well-formed CFGW in CONFIG (40_config.md R101). -/
theorem exec_cfgw_of_wf {s : State} {reg : CfgReg} {v : Half} (hph : s.phase = .config)
    (hlen : s.elems.length = s.params.nenc) (hwf : Instr.wf s.params (.cfgw reg v) = true) :
    ∃ s', exec (.cfgw reg v) s = .next (answered s' 0#32) := by
  obtain ⟨hreg, hv⟩ := Bool.and_eq_true_iff.mp hwf
  cases hw : s.writeReg? reg v with
  | some s' => exact ⟨s', exec_cfgw_of_writeReg? hph hreg (of_decide_eq_true hv) hw⟩
  | none => exact absurd (missing_of_writeReg?_none hreg hw) hlen.not_lt

/-- PPS of every element is 0 at reset, and an instance has at least one element (00_scope.md R5, 10_state.md R47). -/
theorem zeroQuantum_resetOf {p : Params} (hp : p.wf) : zeroQuantum (State.resetOf p) := by
  obtain ⟨-, ⟨hnenc, -⟩, -⟩ := hp
  exact ⟨Elem.reset, List.mem_replicate.mpr ⟨Nat.ne_of_gt hnenc, rfl⟩, rfl⟩

end Sys2Proof.Machine

namespace Sys2Proof.Laws

open Sys2Proof Sys2Proof.Machine Sys2Proof.Safety

/-- Settles O12: the rules of INIT, STAT and CFGW and the phase table, each read at the reset state. -/
theorem afterResetOnlyConstruction : Obligations.AfterResetOnlyConstruction := by
  intro p hp
  obtain ⟨-, hinit, -⟩ := initConstructsOrRejects (State.resetOf p)
  refine ⟨rfl, rfl, rfl, rfl, rfl, hinit rfl (zeroQuantum_resetOf hp), exec_stat _, ?_, ?_⟩
  · intro reg v hwf
    obtain ⟨s', hexec⟩ := exec_cfgw_of_wf (s := State.resetOf p) rfl List.length_replicate hwf
    obtain ⟨hphase, -⟩ | ⟨-, hne⟩ := exec_phase_err hexec
    · exact ⟨_, hexec, rfl, hphase⟩
    · cases hne
  · intro i hwf hperf
    obtain ⟨hrefused, -⟩ := phaseTableIsObeyed i (State.resetOf p) hwf
    exact hrefused hperf

end Sys2Proof.Laws
end
